-- ==== Sys2Proof/Word.lean ====
section
/-! DEFINITION. The machine's word, register number and byte (00_scope.md R2, R3; 10_state.md R20). -/

namespace Sys2Proof

/-- The 32-bit word: registers, addresses, instructions and memory elements (R2). Bit 0 is the
least significant bit (R3). -/
abbrev Word := BitVec 32

/-- The number of a general register, R0 to R15: every register field is 4 bits (R20). -/
abbrev Reg := BitVec 4

/-- One 8-bit byte; a word holds four, numbered 0 to 3 (R2). -/
abbrev Byte := BitVec 8

end Sys2Proof
end

