-- ==== Sys2Proof/Syntax.lean ====
section
/-! DEFINITION. The instructions as syntax. `Instr` is the one inductive of the opcode table
(spec/opcode_table.json): the 28 instruction words, the illegal and the reserved words, one
constructor for every ALU3 row and every ALU2 row, and one for every condition row.
What a word decodes to is `decode` (Decode.lean); which terms are well formed is `Instr.wf`
(WellFormed.lean). -/

namespace Sys2Proof

/-- The 14 defined condition codes 0000 to 1101, in code order (42_control.md R170). -/
inductive Cond where
  | lt | ge | le | gt | lo | hs | ls | hi | zand | nzand | zor | nzor | eq | ne
deriving DecidableEq, Repr

/-- The ALU codes 0001 to 0111 and 1100, which take a first operand A and a second operand B
(40_alu.md R106 to R112, R118). -/
inductive BinOp where
  | add | sub | subr | and | or | xor | rlc | xc
deriving DecidableEq, Repr

/-- The ALU codes 1000 to 1011 (40_alu.md R113 to R117) and their variable forms (R137 to R140). -/
inductive ShiftOp where
  | sll | srl | sra | rol
deriving DecidableEq, Repr

/-- The special register an implicit-source move reads (41_alu_special.md R132 to R136). -/
inductive SrcSel where
  | ap | ma | hi | lo | pc
deriving DecidableEq, Repr

/-- What an implicit-destination piece does with its operand: a move into a special register or a
multiply or divide step (41_alu_special.md R145 to R155). -/
inductive DstSel where
  | ap | ma | hi | lo | pc | msetup | mstep | umend | dstep
deriving DecidableEq, Repr

/-- The ALU3 piece of an ALU23 word (40_alu.md R101). `imm` is the bit i'; a piece that ignores a
field still holds its bits (30_encoding.md R87). -/
inductive Alu3 where
  | mov (imm : Bool) (dst src2 src1 : Reg)
  | bin (op : BinOp) (imm : Bool) (dst src2 src1 : Reg)
  | ic (imm : Bool) (dst src2 src1 : Reg)
  | shift (op : ShiftOp) (dst src2 : Reg) (count : BitVec 5)
  | fromSpecial (sel : SrcSel) (imm : Bool) (dst src2 : Reg)
  | shiftLo (op : ShiftOp) (imm : Bool) (dst src2 : Reg)
  | not (imm : Bool) (dst src2 : Reg)
  | toSpecial (sel : DstSel) (imm : Bool) (src2 src1 : Reg)
deriving DecidableEq, Repr

/-- The ALU2 piece of nine instruction words (40_alu.md R102). `imm` is the host's bit i
(30_encoding.md R82); `dst` is the field dst/src. -/
inductive Alu2 where
  | mov (imm : Bool) (dst src : Reg)
  | bin (op : BinOp) (imm : Bool) (dst src : Reg)
  | ic (imm : Bool) (dst src : Reg)
  | shift (op : ShiftOp) (dst : Reg) (count : BitVec 5)
  | fromSpecial (sel : SrcSel) (imm : Bool) (dst : Reg)
  | shiftLo (op : ShiftOp) (imm : Bool) (dst : Reg)
  | not (imm : Bool) (dst : Reg)
  | toSpecial (sel : DstSel) (imm : Bool) (src : Reg)
deriving DecidableEq, Repr

/-- The idle ALU3 piece `mov R0,R0` with every field zero (30_encoding.md R89). -/
def Alu3.idle : Alu3 := .mov false 0 0 0

/-- The idle ALU2 piece `mov R0,R0` with every field zero (30_encoding.md R89). -/
def Alu2.idle : Alu2 := .mov false 0 0

/-- The operands a condition stands beside in the word that carries it: a branch, a trap or a set
(30_encoding.md R73; the suffix forms of 42_control.md R172). -/
inductive CondHost where
  | branch (imm : Bool) (src2 src1 : Reg) (offset : BitVec 12)
  | trap (imm : Bool) (src2 src1 : Reg) (code : BitVec 11) (bit0 : Bool)
  | set (imm : Bool) (dst src : Reg)
deriving DecidableEq, Repr

/-- The instructions: every row of spec/opcode_table.json. -/
inductive Instr where
  -- the 28 instruction words (30_encoding.md R83)
  | alu23 (p3 : Alu3) (p2 : Alu2)
  | lbalu (dst base : Reg) (p : Alu2) (offset : BitVec 8)
  | sbalu (st base : Reg) (p : Alu2) (offset : BitVec 8)
  | ldl (dst : Reg) (address : BitVec 24)
  | lbi (dst base : Reg) (offset : BitVec 20)
  | std (st : Reg) (address : BitVec 24)
  | sbi (st base : Reg) (offset : BitVec 20)
  | ldi (dst : Reg) (data : BitVec 24)
  | libalu (dst base : Reg) (p : Alu2) (index : Reg)
  | sibalu (st base : Reg) (p : Alu2) (index : Reg)
  | lsbalu (dst base : Reg) (p : Alu2) (shift : BitVec 4)
  | ssbalu (st base : Reg) (p : Alu2) (shift : BitVec 4)
  | jibalu (base : Reg) (p : Alu2) (offset : BitVec 8)
  | spcalu (base : Reg) (p : Alu2) (offset : BitVec 8)
  | jind (address : BitVec 24)
  | jbind (base : Reg) (offset : BitVec 20)
  | spc (address : BitVec 24)
  | spcb (base : Reg) (offset : BitVec 20)
  | jdrct (address : BitVec 24)
  | jbase (base : Reg) (offset : BitVec 20)
  | bucnd (offset : BitVec 24)
  | bcnd (c : Cond) (imm : Bool) (src2 src1 : Reg) (offset : BitVec 12)
  | trap (c : Cond) (imm : Bool) (src2 src1 : Reg) (code : BitVec 11) (bit0 : Bool)
  | scnd (c : Cond) (imm : Bool) (dst src : Reg)
  | lds (address : BitVec 24)
  | sts (address : BitVec 24)
  | savepc (address : BitVec 24)
  | jindss (address : BitVec 24)
  -- the words that are no instruction (R85) and the reserved ones (R86)
  | illegal (word : Word)
  | reserved (word : Word)
  -- the ALU3 rows: an ALU23 word whose ALU2 piece is idle
  | mov3 (imm : Bool) (dst src2 src1 : Reg)
  | add3 (imm : Bool) (dst src2 src1 : Reg)
  | sub3 (imm : Bool) (dst src2 src1 : Reg)
  | subr3 (imm : Bool) (dst src2 src1 : Reg)
  | and3 (imm : Bool) (dst src2 src1 : Reg)
  | or3 (imm : Bool) (dst src2 src1 : Reg)
  | xor3 (imm : Bool) (dst src2 src1 : Reg)
  | rlc3 (imm : Bool) (dst src2 src1 : Reg)
  | sll3 (dst src2 : Reg) (count : BitVec 5)
  | srl3 (dst src2 : Reg) (count : BitVec 5)
  | sra3 (dst src2 : Reg) (count : BitVec 5)
  | rol3 (dst src2 : Reg) (count : BitVec 5)
  | xc3 (imm : Bool) (dst src2 src1 : Reg)
  | ic3 (imm : Bool) (dst src2 src1 : Reg)
  | movApDst3 (imm : Bool) (dst src2 : Reg)
  | movMaDst3 (imm : Bool) (dst src2 : Reg)
  | movHiDst3 (imm : Bool) (dst src2 : Reg)
  | movLoDst3 (imm : Bool) (dst src2 : Reg)
  | movPcDst3 (imm : Bool) (dst src2 : Reg)
  | sllLo3 (imm : Bool) (dst src2 : Reg)
  | srlLo3 (imm : Bool) (dst src2 : Reg)
  | sraLo3 (imm : Bool) (dst src2 : Reg)
  | rolLo3 (imm : Bool) (dst src2 : Reg)
  | not3 (imm : Bool) (dst src2 : Reg)
  | movSrcAp3 (imm : Bool) (src2 src1 : Reg)
  | movSrcMa3 (imm : Bool) (src2 src1 : Reg)
  | movSrcHi3 (imm : Bool) (src2 src1 : Reg)
  | movSrcLo3 (imm : Bool) (src2 src1 : Reg)
  | movSrcPc3 (imm : Bool) (src2 src1 : Reg)
  | msetup3 (imm : Bool) (src2 src1 : Reg)
  | mstep3 (imm : Bool) (src2 src1 : Reg)
  | umend3 (imm : Bool) (src2 src1 : Reg)
  | dstep3 (imm : Bool) (src2 src1 : Reg)
  -- the ALU2 rows: an ALU23 word whose ALU3 piece is idle
  | mov2 (imm : Bool) (dst src : Reg)
  | add2 (imm : Bool) (dst src : Reg)
  | sub2 (imm : Bool) (dst src : Reg)
  | subr2 (imm : Bool) (dst src : Reg)
  | and2 (imm : Bool) (dst src : Reg)
  | or2 (imm : Bool) (dst src : Reg)
  | xor2 (imm : Bool) (dst src : Reg)
  | rlc2 (imm : Bool) (dst src : Reg)
  | sll2 (dst : Reg) (count : BitVec 5)
  | srl2 (dst : Reg) (count : BitVec 5)
  | sra2 (dst : Reg) (count : BitVec 5)
  | rol2 (dst : Reg) (count : BitVec 5)
  | xc2 (imm : Bool) (dst src : Reg)
  | ic2 (imm : Bool) (dst src : Reg)
  | movApDst2 (imm : Bool) (dst : Reg)
  | movMaDst2 (imm : Bool) (dst : Reg)
  | movHiDst2 (imm : Bool) (dst : Reg)
  | movLoDst2 (imm : Bool) (dst : Reg)
  | movPcDst2 (imm : Bool) (dst : Reg)
  | sllLo2 (imm : Bool) (dst : Reg)
  | srlLo2 (imm : Bool) (dst : Reg)
  | sraLo2 (imm : Bool) (dst : Reg)
  | rolLo2 (imm : Bool) (dst : Reg)
  | not2 (imm : Bool) (dst : Reg)
  | movSrcAp2 (imm : Bool) (src : Reg)
  | movSrcMa2 (imm : Bool) (src : Reg)
  | movSrcHi2 (imm : Bool) (src : Reg)
  | movSrcLo2 (imm : Bool) (src : Reg)
  | movSrcPc2 (imm : Bool) (src : Reg)
  | msetup2 (imm : Bool) (src : Reg)
  | mstep2 (imm : Bool) (src : Reg)
  | umend2 (imm : Bool) (src : Reg)
  | dstep2 (imm : Bool) (src : Reg)
  -- the condition rows: the suffix spelling of a branch, trap or set (R172)
  | lt (h : CondHost)
  | ge (h : CondHost)
  | le (h : CondHost)
  | gt (h : CondHost)
  | lo (h : CondHost)
  | hs (h : CondHost)
  | ls (h : CondHost)
  | hi (h : CondHost)
  | zand (h : CondHost)
  | nzand (h : CondHost)
  | zor (h : CondHost)
  | nzor (h : CondHost)
  | eq (h : CondHost)
  | ne (h : CondHost)
deriving DecidableEq, Repr

/-- The ALU23 instruction that carries one ALU3 piece and the idle ALU2 piece, under its row's own
constructor. -/
def Instr.ofAlu3 : Alu3 → Instr
  | .mov imm dst src2 src1 => .mov3 imm dst src2 src1
  | .bin .add imm dst src2 src1 => .add3 imm dst src2 src1
  | .bin .sub imm dst src2 src1 => .sub3 imm dst src2 src1
  | .bin .subr imm dst src2 src1 => .subr3 imm dst src2 src1
  | .bin .and imm dst src2 src1 => .and3 imm dst src2 src1
  | .bin .or imm dst src2 src1 => .or3 imm dst src2 src1
  | .bin .xor imm dst src2 src1 => .xor3 imm dst src2 src1
  | .bin .rlc imm dst src2 src1 => .rlc3 imm dst src2 src1
  | .bin .xc imm dst src2 src1 => .xc3 imm dst src2 src1
  | .ic imm dst src2 src1 => .ic3 imm dst src2 src1
  | .shift .sll dst src2 n => .sll3 dst src2 n
  | .shift .srl dst src2 n => .srl3 dst src2 n
  | .shift .sra dst src2 n => .sra3 dst src2 n
  | .shift .rol dst src2 n => .rol3 dst src2 n
  | .fromSpecial .ap imm dst src2 => .movApDst3 imm dst src2
  | .fromSpecial .ma imm dst src2 => .movMaDst3 imm dst src2
  | .fromSpecial .hi imm dst src2 => .movHiDst3 imm dst src2
  | .fromSpecial .lo imm dst src2 => .movLoDst3 imm dst src2
  | .fromSpecial .pc imm dst src2 => .movPcDst3 imm dst src2
  | .shiftLo .sll imm dst src2 => .sllLo3 imm dst src2
  | .shiftLo .srl imm dst src2 => .srlLo3 imm dst src2
  | .shiftLo .sra imm dst src2 => .sraLo3 imm dst src2
  | .shiftLo .rol imm dst src2 => .rolLo3 imm dst src2
  | .not imm dst src2 => .not3 imm dst src2
  | .toSpecial .ap imm src2 src1 => .movSrcAp3 imm src2 src1
  | .toSpecial .ma imm src2 src1 => .movSrcMa3 imm src2 src1
  | .toSpecial .hi imm src2 src1 => .movSrcHi3 imm src2 src1
  | .toSpecial .lo imm src2 src1 => .movSrcLo3 imm src2 src1
  | .toSpecial .pc imm src2 src1 => .movSrcPc3 imm src2 src1
  | .toSpecial .msetup imm src2 src1 => .msetup3 imm src2 src1
  | .toSpecial .mstep imm src2 src1 => .mstep3 imm src2 src1
  | .toSpecial .umend imm src2 src1 => .umend3 imm src2 src1
  | .toSpecial .dstep imm src2 src1 => .dstep3 imm src2 src1

/-- The ALU23 instruction that carries one ALU2 piece and the idle ALU3 piece, under its row's own
constructor. -/
def Instr.ofAlu2 : Alu2 → Instr
  | .mov imm dst src => .mov2 imm dst src
  | .bin .add imm dst src => .add2 imm dst src
  | .bin .sub imm dst src => .sub2 imm dst src
  | .bin .subr imm dst src => .subr2 imm dst src
  | .bin .and imm dst src => .and2 imm dst src
  | .bin .or imm dst src => .or2 imm dst src
  | .bin .xor imm dst src => .xor2 imm dst src
  | .bin .rlc imm dst src => .rlc2 imm dst src
  | .bin .xc imm dst src => .xc2 imm dst src
  | .ic imm dst src => .ic2 imm dst src
  | .shift .sll dst n => .sll2 dst n
  | .shift .srl dst n => .srl2 dst n
  | .shift .sra dst n => .sra2 dst n
  | .shift .rol dst n => .rol2 dst n
  | .fromSpecial .ap imm dst => .movApDst2 imm dst
  | .fromSpecial .ma imm dst => .movMaDst2 imm dst
  | .fromSpecial .hi imm dst => .movHiDst2 imm dst
  | .fromSpecial .lo imm dst => .movLoDst2 imm dst
  | .fromSpecial .pc imm dst => .movPcDst2 imm dst
  | .shiftLo .sll imm dst => .sllLo2 imm dst
  | .shiftLo .srl imm dst => .srlLo2 imm dst
  | .shiftLo .sra imm dst => .sraLo2 imm dst
  | .shiftLo .rol imm dst => .rolLo2 imm dst
  | .not imm dst => .not2 imm dst
  | .toSpecial .ap imm src => .movSrcAp2 imm src
  | .toSpecial .ma imm src => .movSrcMa2 imm src
  | .toSpecial .hi imm src => .movSrcHi2 imm src
  | .toSpecial .lo imm src => .movSrcLo2 imm src
  | .toSpecial .pc imm src => .movSrcPc2 imm src
  | .toSpecial .msetup imm src => .msetup2 imm src
  | .toSpecial .mstep imm src => .mstep2 imm src
  | .toSpecial .umend imm src => .umend2 imm src
  | .toSpecial .dstep imm src => .dstep2 imm src

/-- The condition row's own constructor: the suffix spelling of a branch, trap or set (R172). -/
def Instr.ofCond (c : Cond) (h : CondHost) : Instr :=
  match c with
  | .lt => .lt h
  | .ge => .ge h
  | .le => .le h
  | .gt => .gt h
  | .lo => .lo h
  | .hs => .hs h
  | .ls => .ls h
  | .hi => .hi h
  | .zand => .zand h
  | .nzand => .nzand h
  | .zor => .zor h
  | .nzor => .nzor h
  | .eq => .eq h
  | .ne => .ne h

/-- The instruction word a condition and its operands make: BCND, TRAP or SCND (R73, R172). -/
def CondHost.instr (c : Cond) : CondHost → Instr
  | .branch imm src2 src1 offset => .bcnd c imm src2 src1 offset
  | .trap imm src2 src1 code bit0 => .trap c imm src2 src1 code bit0
  | .set imm dst src => .scnd c imm dst src

/-- The two pieces of an ALU23 word, idle ones included; none for every other instruction
(30_encoding.md R72). -/
def Instr.packing : Instr → Option (Alu3 × Alu2)
  | .alu23 p3 p2 => some (p3, p2)
  | .mov3 imm dst src2 src1 => some (.mov imm dst src2 src1, Alu2.idle)
  | .add3 imm dst src2 src1 => some (.bin .add imm dst src2 src1, Alu2.idle)
  | .sub3 imm dst src2 src1 => some (.bin .sub imm dst src2 src1, Alu2.idle)
  | .subr3 imm dst src2 src1 => some (.bin .subr imm dst src2 src1, Alu2.idle)
  | .and3 imm dst src2 src1 => some (.bin .and imm dst src2 src1, Alu2.idle)
  | .or3 imm dst src2 src1 => some (.bin .or imm dst src2 src1, Alu2.idle)
  | .xor3 imm dst src2 src1 => some (.bin .xor imm dst src2 src1, Alu2.idle)
  | .rlc3 imm dst src2 src1 => some (.bin .rlc imm dst src2 src1, Alu2.idle)
  | .xc3 imm dst src2 src1 => some (.bin .xc imm dst src2 src1, Alu2.idle)
  | .ic3 imm dst src2 src1 => some (.ic imm dst src2 src1, Alu2.idle)
  | .sll3 dst src2 n => some (.shift .sll dst src2 n, Alu2.idle)
  | .srl3 dst src2 n => some (.shift .srl dst src2 n, Alu2.idle)
  | .sra3 dst src2 n => some (.shift .sra dst src2 n, Alu2.idle)
  | .rol3 dst src2 n => some (.shift .rol dst src2 n, Alu2.idle)
  | .movApDst3 imm dst src2 => some (.fromSpecial .ap imm dst src2, Alu2.idle)
  | .movMaDst3 imm dst src2 => some (.fromSpecial .ma imm dst src2, Alu2.idle)
  | .movHiDst3 imm dst src2 => some (.fromSpecial .hi imm dst src2, Alu2.idle)
  | .movLoDst3 imm dst src2 => some (.fromSpecial .lo imm dst src2, Alu2.idle)
  | .movPcDst3 imm dst src2 => some (.fromSpecial .pc imm dst src2, Alu2.idle)
  | .sllLo3 imm dst src2 => some (.shiftLo .sll imm dst src2, Alu2.idle)
  | .srlLo3 imm dst src2 => some (.shiftLo .srl imm dst src2, Alu2.idle)
  | .sraLo3 imm dst src2 => some (.shiftLo .sra imm dst src2, Alu2.idle)
  | .rolLo3 imm dst src2 => some (.shiftLo .rol imm dst src2, Alu2.idle)
  | .not3 imm dst src2 => some (.not imm dst src2, Alu2.idle)
  | .movSrcAp3 imm src2 src1 => some (.toSpecial .ap imm src2 src1, Alu2.idle)
  | .movSrcMa3 imm src2 src1 => some (.toSpecial .ma imm src2 src1, Alu2.idle)
  | .movSrcHi3 imm src2 src1 => some (.toSpecial .hi imm src2 src1, Alu2.idle)
  | .movSrcLo3 imm src2 src1 => some (.toSpecial .lo imm src2 src1, Alu2.idle)
  | .movSrcPc3 imm src2 src1 => some (.toSpecial .pc imm src2 src1, Alu2.idle)
  | .msetup3 imm src2 src1 => some (.toSpecial .msetup imm src2 src1, Alu2.idle)
  | .mstep3 imm src2 src1 => some (.toSpecial .mstep imm src2 src1, Alu2.idle)
  | .umend3 imm src2 src1 => some (.toSpecial .umend imm src2 src1, Alu2.idle)
  | .dstep3 imm src2 src1 => some (.toSpecial .dstep imm src2 src1, Alu2.idle)
  | .mov2 imm dst src => some (Alu3.idle, .mov imm dst src)
  | .add2 imm dst src => some (Alu3.idle, .bin .add imm dst src)
  | .sub2 imm dst src => some (Alu3.idle, .bin .sub imm dst src)
  | .subr2 imm dst src => some (Alu3.idle, .bin .subr imm dst src)
  | .and2 imm dst src => some (Alu3.idle, .bin .and imm dst src)
  | .or2 imm dst src => some (Alu3.idle, .bin .or imm dst src)
  | .xor2 imm dst src => some (Alu3.idle, .bin .xor imm dst src)
  | .rlc2 imm dst src => some (Alu3.idle, .bin .rlc imm dst src)
  | .xc2 imm dst src => some (Alu3.idle, .bin .xc imm dst src)
  | .ic2 imm dst src => some (Alu3.idle, .ic imm dst src)
  | .sll2 dst n => some (Alu3.idle, .shift .sll dst n)
  | .srl2 dst n => some (Alu3.idle, .shift .srl dst n)
  | .sra2 dst n => some (Alu3.idle, .shift .sra dst n)
  | .rol2 dst n => some (Alu3.idle, .shift .rol dst n)
  | .movApDst2 imm dst => some (Alu3.idle, .fromSpecial .ap imm dst)
  | .movMaDst2 imm dst => some (Alu3.idle, .fromSpecial .ma imm dst)
  | .movHiDst2 imm dst => some (Alu3.idle, .fromSpecial .hi imm dst)
  | .movLoDst2 imm dst => some (Alu3.idle, .fromSpecial .lo imm dst)
  | .movPcDst2 imm dst => some (Alu3.idle, .fromSpecial .pc imm dst)
  | .sllLo2 imm dst => some (Alu3.idle, .shiftLo .sll imm dst)
  | .srlLo2 imm dst => some (Alu3.idle, .shiftLo .srl imm dst)
  | .sraLo2 imm dst => some (Alu3.idle, .shiftLo .sra imm dst)
  | .rolLo2 imm dst => some (Alu3.idle, .shiftLo .rol imm dst)
  | .not2 imm dst => some (Alu3.idle, .not imm dst)
  | .movSrcAp2 imm src => some (Alu3.idle, .toSpecial .ap imm src)
  | .movSrcMa2 imm src => some (Alu3.idle, .toSpecial .ma imm src)
  | .movSrcHi2 imm src => some (Alu3.idle, .toSpecial .hi imm src)
  | .movSrcLo2 imm src => some (Alu3.idle, .toSpecial .lo imm src)
  | .movSrcPc2 imm src => some (Alu3.idle, .toSpecial .pc imm src)
  | .msetup2 imm src => some (Alu3.idle, .toSpecial .msetup imm src)
  | .mstep2 imm src => some (Alu3.idle, .toSpecial .mstep imm src)
  | .umend2 imm src => some (Alu3.idle, .toSpecial .umend imm src)
  | .dstep2 imm src => some (Alu3.idle, .toSpecial .dstep imm src)
  | _ => none

/-- The condition of a branch, trap or set and its operands, under either spelling (R172). -/
def Instr.condition : Instr → Option (Cond × CondHost)
  | .bcnd c imm src2 src1 offset => some (c, .branch imm src2 src1 offset)
  | .trap c imm src2 src1 code bit0 => some (c, .trap imm src2 src1 code bit0)
  | .scnd c imm dst src => some (c, .set imm dst src)
  | .lt h => some (.lt, h)
  | .ge h => some (.ge, h)
  | .le h => some (.le, h)
  | .gt h => some (.gt, h)
  | .lo h => some (.lo, h)
  | .hs h => some (.hs, h)
  | .ls h => some (.ls, h)
  | .hi h => some (.hi, h)
  | .zand h => some (.zand, h)
  | .nzand h => some (.nzand, h)
  | .zor h => some (.zor, h)
  | .nzor h => some (.nzor, h)
  | .eq h => some (.eq, h)
  | .ne h => some (.ne, h)
  | _ => none

end Sys2Proof
end

