-- ==== Sys2Proof/WellFormed.lean ====
section
/-! DEFINITION. Which terms of `Instr` stand for a word. The illegal and the reserved words are
given here by the masks and matches of spec/opcode_table.json (30_encoding.md R85, R86),
independently of `decode`. -/

namespace Sys2Proof

/-- A row of the opcode table: the word belongs to it when `word & mask = bits` (R83). -/
structure MaskRow where
  mask : Word
  bits : Word
deriving DecidableEq, Repr

/-- Whether a word matches some row of a list. -/
def anyRow (rows : List MaskRow) (w : Word) : Bool :=
  rows.any fun r => w &&& r.mask == r.bits

/-- The words of ALU23, the one instruction with an ALU3 piece (R72). -/
def alu3Hosts : List MaskRow := [⟨0xC0000000, 0x00000000⟩]

/-- The nine instructions with an ALU2 piece (R82, R83). -/
def alu2Hosts : List MaskRow :=
  [⟨0xC0000000, 0x00000000⟩, ⟨0xE0000000, 0x40000000⟩, ⟨0xE0000000, 0x60000000⟩,
   ⟨0xF00000E0, 0xD0000000⟩, ⟨0xF00000E0, 0xD0000020⟩, ⟨0xF00000E0, 0xD0000040⟩,
   ⟨0xF00000E0, 0xD0000060⟩, ⟨0xFE000000, 0xE4000000⟩, ⟨0xFE000000, 0xE6000000⟩]

/-- BCND, TRAP and SCND, which carry a condition code (R73). -/
def condHosts : List MaskRow :=
  [⟨0xFE000000, 0xF0000000⟩, ⟨0xFE000000, 0xF2000000⟩, ⟨0xFE000000, 0xF4000000⟩]

/-- The words that match no instruction row: the table's twelve `word-illegal` rows (R85). -/
def illegalWordRows : List MaskRow :=
  [⟨0xF0000080, 0xD0000080⟩, ⟨0xFF000000, 0xE0000000⟩, ⟨0xFF000000, 0xE1000000⟩,
   ⟨0xFF000000, 0xE2000000⟩, ⟨0xFF000000, 0xE3000000⟩, ⟨0xFF000000, 0xEF000000⟩,
   ⟨0xFF000000, 0xF6000000⟩, ⟨0xFF000000, 0xF7000000⟩, ⟨0xFF000000, 0xFA000000⟩,
   ⟨0xFF000000, 0xFB000000⟩, ⟨0xFF000000, 0xFC000000⟩, ⟨0xFF000000, 0xFD000000⟩]

/-- The ALU3 pieces with an unlisted implicit code (41_alu_special.md R142, R150). -/
def illegalAlu3Rows : List MaskRow :=
  [⟨0x00F0000F, 0x00E0000D⟩, ⟨0x00F0000F, 0x00E0000E⟩, ⟨0x00F0000F, 0x00E0000F⟩,
   ⟨0x0FF00000, 0x0CF00000⟩, ⟨0x0FF00000, 0x0DF00000⟩, ⟨0x0FF00000, 0x0EF00000⟩,
   ⟨0x0FF00000, 0x0FF00000⟩]

/-- The ALU2 pieces with an unlisted implicit code (R142, R150). -/
def illegalAlu2Rows : List MaskRow :=
  [⟨0x0000FF00, 0x0000DE00⟩, ⟨0x0000FF00, 0x0000EE00⟩, ⟨0x0000FF00, 0x0000FE00⟩,
   ⟨0x000F0F00, 0x000C0F00⟩, ⟨0x000F0F00, 0x000D0F00⟩, ⟨0x000F0F00, 0x000E0F00⟩,
   ⟨0x000F0F00, 0x000F0F00⟩]

/-- The ALU3 pieces with a reserved implicit code (R131, R144). -/
def reservedAlu3Rows : List MaskRow :=
  [⟨0x00F0000F, 0x00E00000⟩, ⟨0x00F0000F, 0x00E00001⟩, ⟨0x00F0000F, 0x00E00006⟩,
   ⟨0x0FF00000, 0x00F00000⟩, ⟨0x0FF00000, 0x01F00000⟩, ⟨0x0FF00000, 0x06F00000⟩]

/-- The ALU2 pieces with a reserved implicit code (R131, R144). -/
def reservedAlu2Rows : List MaskRow :=
  [⟨0x0000FF00, 0x00000E00⟩, ⟨0x0000FF00, 0x00001E00⟩, ⟨0x0000FF00, 0x00006E00⟩,
   ⟨0x000F0F00, 0x00000F00⟩, ⟨0x000F0F00, 0x00010F00⟩, ⟨0x000F0F00, 0x00060F00⟩]

/-- The reserved condition codes 1110 and 1111 (42_control.md R171). -/
def reservedCondRows : List MaskRow := [⟨0x00F00000, 0x00E00000⟩, ⟨0x00F00000, 0x00F00000⟩]

/-- The illegal words: those of no instruction row, and those with an illegal ALU piece (R85). -/
def illegalWord (w : Word) : Bool :=
  anyRow illegalWordRows w
    || (anyRow alu3Hosts w && anyRow illegalAlu3Rows w)
    || (anyRow alu2Hosts w && anyRow illegalAlu2Rows w)

/-- The words that use a reserved code, SCND words with a non-zero low part among them (R86,
45_setcond_trap.md R241). A word may be both illegal and reserved; R262 then names it illegal. -/
def reservedWord (w : Word) : Bool :=
  (anyRow alu3Hosts w && anyRow reservedAlu3Rows w)
    || (anyRow alu2Hosts w && anyRow reservedAlu2Rows w)
    || (anyRow condHosts w && anyRow reservedCondRows w)
    || (w &&& 0xFE000000 == 0xF4000000 && w &&& 0x00000FFF != 0)

/-- Whether a term is the one its word is read as, up to the condition rows' suffix spelling.
- `alu23` packs two pieces of which neither is idle, or is the all-zero no-op word (R89); a word
  with one idle piece belongs to the other piece's own row.
- `mov3` and `mov2` are not the idle piece itself.
- `illegal` and `reserved` hold such a word.
Every other term is well formed, whatever its operands. -/
def Instr.wf : Instr → Bool
  | .alu23 p3 p2 => (p3 == Alu3.idle) == (p2 == Alu2.idle)
  | .mov3 imm dst src2 src1 => Alu3.mov imm dst src2 src1 != Alu3.idle
  | .mov2 imm dst src => Alu2.mov imm dst src != Alu2.idle
  | .illegal w => illegalWord w
  | .reserved w => reservedWord w && !illegalWord w
  | _ => true

/-- The row of the opcode map an instruction's word belongs to, by its mask and match; none for the
words that are no instruction (R83). -/
def Instr.row (i : Instr) : Option MaskRow :=
  match i with
  | .lbalu _ _ _ _ => some ⟨0xE0000000, 0x40000000⟩
  | .sbalu _ _ _ _ => some ⟨0xE0000000, 0x60000000⟩
  | .ldl _ _ => some ⟨0xF0000000, 0x80000000⟩
  | .lbi _ _ _ => some ⟨0xF0000000, 0x90000000⟩
  | .std _ _ => some ⟨0xF0000000, 0xA0000000⟩
  | .sbi _ _ _ => some ⟨0xF0000000, 0xB0000000⟩
  | .ldi _ _ => some ⟨0xF0000000, 0xC0000000⟩
  | .libalu _ _ _ _ => some ⟨0xF00000E0, 0xD0000000⟩
  | .sibalu _ _ _ _ => some ⟨0xF00000E0, 0xD0000020⟩
  | .lsbalu _ _ _ _ => some ⟨0xF00000E0, 0xD0000040⟩
  | .ssbalu _ _ _ _ => some ⟨0xF00000E0, 0xD0000060⟩
  | .jibalu _ _ _ => some ⟨0xFE000000, 0xE4000000⟩
  | .spcalu _ _ _ => some ⟨0xFE000000, 0xE6000000⟩
  | .jind _ => some ⟨0xFF000000, 0xE8000000⟩
  | .jbind _ _ => some ⟨0xFF000000, 0xE9000000⟩
  | .spc _ => some ⟨0xFF000000, 0xEA000000⟩
  | .spcb _ _ => some ⟨0xFF000000, 0xEB000000⟩
  | .jdrct _ => some ⟨0xFF000000, 0xEC000000⟩
  | .jbase _ _ => some ⟨0xFF000000, 0xED000000⟩
  | .bucnd _ => some ⟨0xFF000000, 0xEE000000⟩
  | .lds _ => some ⟨0xFF000000, 0xF8000000⟩
  | .sts _ => some ⟨0xFF000000, 0xF9000000⟩
  | .savepc _ => some ⟨0xFF000000, 0xFE000000⟩
  | .jindss _ => some ⟨0xFF000000, 0xFF000000⟩
  | _ =>
    match i.packing, i.condition with
    | some _, _ => some ⟨0xC0000000, 0x00000000⟩
    | _, some (_, .branch _ _ _ _) => some ⟨0xFE000000, 0xF0000000⟩
    | _, some (_, .trap _ _ _ _ _) => some ⟨0xFE000000, 0xF2000000⟩
    | _, some (_, .set _ _ _) => some ⟨0xFE000FFF, 0xF4000000⟩
    | none, none => none

/-- The 28 rows of the opcode map (R83). -/
def opcodeRows : List MaskRow :=
  [⟨0xC0000000, 0x00000000⟩, ⟨0xE0000000, 0x40000000⟩, ⟨0xE0000000, 0x60000000⟩,
   ⟨0xF0000000, 0x80000000⟩, ⟨0xF0000000, 0x90000000⟩, ⟨0xF0000000, 0xA0000000⟩,
   ⟨0xF0000000, 0xB0000000⟩, ⟨0xF0000000, 0xC0000000⟩, ⟨0xF00000E0, 0xD0000000⟩,
   ⟨0xF00000E0, 0xD0000020⟩, ⟨0xF00000E0, 0xD0000040⟩, ⟨0xF00000E0, 0xD0000060⟩,
   ⟨0xFE000000, 0xE4000000⟩, ⟨0xFE000000, 0xE6000000⟩, ⟨0xFF000000, 0xE8000000⟩,
   ⟨0xFF000000, 0xE9000000⟩, ⟨0xFF000000, 0xEA000000⟩, ⟨0xFF000000, 0xEB000000⟩,
   ⟨0xFF000000, 0xEC000000⟩, ⟨0xFF000000, 0xED000000⟩, ⟨0xFF000000, 0xEE000000⟩,
   ⟨0xFE000000, 0xF0000000⟩, ⟨0xFE000000, 0xF2000000⟩, ⟨0xFE000FFF, 0xF4000000⟩,
   ⟨0xFF000000, 0xF8000000⟩, ⟨0xFF000000, 0xF9000000⟩, ⟨0xFF000000, 0xFE000000⟩,
   ⟨0xFF000000, 0xFF000000⟩]

end Sys2Proof
end

