-- ==== Sys2Proof/Decode.lean ====
section
/-! DEFINITION. From words to instructions and back (30_encoding.md R70 to R89): the bit-field
helpers, `decode`, total on every word, which names the illegal and the reserved words, and after
it `encode`, written from the same layouts. -/

namespace Sys2Proof

/-! ### Bit fields -/

/-- The field `w[lo+n-1 : lo]` (00_scope.md R4). -/
def field (w : Word) (lo n : Nat) : BitVec n := w.extractLsb' lo n

/-- The word whose field at `lo` is `v` and whose other bits are zero. -/
def place {n : Nat} (v : BitVec n) (lo : Nat) : Word := v.setWidth 32 <<< lo

/-- One bit of a word, as a flag. -/
def flag (w : Word) (k : Nat) : Bool := w.getLsbD k

/-- The word with one flag at bit `k`. -/
def placeFlag (b : Bool) (k : Nat) : Word := place (BitVec.ofBool b) k

/-! ### The pieces of a word -/

/-- What the code of a piece or of a condition is: listed, illegal (R85) or reserved (R86). -/
inductive Coded (α : Type) where
  | listed (x : α)
  | illegal
  | reserved
deriving DecidableEq, Repr

/-- The condition codes (42_control.md R170, R171). -/
def decodeCond (code : BitVec 4) : Coded Cond :=
  match code.toNat with
  | 0 => .listed .lt
  | 1 => .listed .ge
  | 2 => .listed .le
  | 3 => .listed .gt
  | 4 => .listed .lo
  | 5 => .listed .hs
  | 6 => .listed .ls
  | 7 => .listed .hi
  | 8 => .listed .zand
  | 9 => .listed .nzand
  | 10 => .listed .zor
  | 11 => .listed .nzor
  | 12 => .listed .eq
  | 13 => .listed .ne
  | _ => .reserved

/-- The implicit-destination codes (41_alu_special.md R143, R144, R150). -/
def decodeDst (code : BitVec 4) : Coded DstSel :=
  match code.toNat with
  | 0 => .reserved
  | 1 => .reserved
  | 2 => .listed .ap
  | 3 => .listed .ma
  | 4 => .listed .hi
  | 5 => .listed .lo
  | 6 => .reserved
  | 7 => .listed .pc
  | 8 => .listed .msetup
  | 9 => .listed .mstep
  | 10 => .listed .umend
  | 11 => .listed .dstep
  | _ => .illegal

/-- The ALU3 piece with flag i' and fields dst, alu.3, src2, src1 (R72, R84). -/
def decodeAlu3 (imm : Bool) (dst op src2 src1 : BitVec 4) : Coded Alu3 :=
  match op.toNat with
  | 0 => .listed (.mov imm dst src2 src1)
  | 1 => .listed (.bin .add imm dst src2 src1)
  | 2 => .listed (.bin .sub imm dst src2 src1)
  | 3 => .listed (.bin .subr imm dst src2 src1)
  | 4 => .listed (.bin .and imm dst src2 src1)
  | 5 => .listed (.bin .or imm dst src2 src1)
  | 6 => .listed (.bin .xor imm dst src2 src1)
  | 7 => .listed (.bin .rlc imm dst src2 src1)
  | 8 => .listed (.shift .sll dst src2 (BitVec.ofBool imm ++ src1))
  | 9 => .listed (.shift .srl dst src2 (BitVec.ofBool imm ++ src1))
  | 10 => .listed (.shift .sra dst src2 (BitVec.ofBool imm ++ src1))
  | 11 => .listed (.shift .rol dst src2 (BitVec.ofBool imm ++ src1))
  | 12 => .listed (.bin .xc imm dst src2 src1)
  | 13 => .listed (.ic imm dst src2 src1)
  | 14 =>
    match src1.toNat with
    | 0 => .reserved
    | 1 => .reserved
    | 2 => .listed (.fromSpecial .ap imm dst src2)
    | 3 => .listed (.fromSpecial .ma imm dst src2)
    | 4 => .listed (.fromSpecial .hi imm dst src2)
    | 5 => .listed (.fromSpecial .lo imm dst src2)
    | 6 => .reserved
    | 7 => .listed (.fromSpecial .pc imm dst src2)
    | 8 => .listed (.shiftLo .sll imm dst src2)
    | 9 => .listed (.shiftLo .srl imm dst src2)
    | 10 => .listed (.shiftLo .sra imm dst src2)
    | 11 => .listed (.shiftLo .rol imm dst src2)
    | 12 => .listed (.not imm dst src2)
    | _ => .illegal
  | _ =>
    match decodeDst dst with
    | .listed sel => .listed (.toSpecial sel imm src2 src1)
    | .illegal => .illegal
    | .reserved => .reserved

/-- The ALU2 piece with flag i and fields dst/src, src, alu.2 (R82, R84). -/
def decodeAlu2 (imm : Bool) (dst src op : BitVec 4) : Coded Alu2 :=
  match op.toNat with
  | 0 => .listed (.mov imm dst src)
  | 1 => .listed (.bin .add imm dst src)
  | 2 => .listed (.bin .sub imm dst src)
  | 3 => .listed (.bin .subr imm dst src)
  | 4 => .listed (.bin .and imm dst src)
  | 5 => .listed (.bin .or imm dst src)
  | 6 => .listed (.bin .xor imm dst src)
  | 7 => .listed (.bin .rlc imm dst src)
  | 8 => .listed (.shift .sll dst (BitVec.ofBool imm ++ src))
  | 9 => .listed (.shift .srl dst (BitVec.ofBool imm ++ src))
  | 10 => .listed (.shift .sra dst (BitVec.ofBool imm ++ src))
  | 11 => .listed (.shift .rol dst (BitVec.ofBool imm ++ src))
  | 12 => .listed (.bin .xc imm dst src)
  | 13 => .listed (.ic imm dst src)
  | 14 =>
    match src.toNat with
    | 0 => .reserved
    | 1 => .reserved
    | 2 => .listed (.fromSpecial .ap imm dst)
    | 3 => .listed (.fromSpecial .ma imm dst)
    | 4 => .listed (.fromSpecial .hi imm dst)
    | 5 => .listed (.fromSpecial .lo imm dst)
    | 6 => .reserved
    | 7 => .listed (.fromSpecial .pc imm dst)
    | 8 => .listed (.shiftLo .sll imm dst)
    | 9 => .listed (.shiftLo .srl imm dst)
    | 10 => .listed (.shiftLo .sra imm dst)
    | 11 => .listed (.shiftLo .rol imm dst)
    | 12 => .listed (.not imm dst)
    | _ => .illegal
  | _ =>
    match decodeDst dst with
    | .listed sel => .listed (.toSpecial sel imm src)
    | .illegal => .illegal
    | .reserved => .reserved

/-! ### The word -/

/-- The ALU23 word with two listed pieces: a piece beside an idle one is read as its own row, and
every other pair, the all-zero word among them (R89), as `alu23`. -/
def packPieces (p3 : Alu3) (p2 : Alu2) : Instr :=
  if p2 = Alu2.idle then
    if p3 = Alu3.idle then .alu23 p3 p2 else .ofAlu3 p3
  else
    if p3 = Alu3.idle then .ofAlu2 p2 else .alu23 p3 p2

/-- Layout ALU23 (R72). An illegal piece is named before a reserved one (60_exceptions.md R262). -/
def decodeAlu23 (w : Word) : Instr :=
  match decodeAlu3 (flag w 29) (field w 24 4) (field w 20 4) (field w 4 4) (field w 0 4),
        decodeAlu2 (flag w 28) (field w 16 4) (field w 12 4) (field w 8 4) with
  | .illegal, _ => .illegal w
  | _, .illegal => .illegal w
  | .reserved, _ => .reserved w
  | _, .reserved => .reserved w
  | .listed p3, .listed p2 => packPieces p3 p2

/-- A word with an ALU2 piece whose flag i is at bit `k` (R82). -/
def withAlu2 (w : Word) (k : Nat) (host : Alu2 → Instr) : Instr :=
  match decodeAlu2 (flag w k) (field w 16 4) (field w 12 4) (field w 8 4) with
  | .listed p => host p
  | .illegal => .illegal w
  | .reserved => .reserved w

/-- A word with a condition code (R73). -/
def withCond (w : Word) (host : Cond → Instr) : Instr :=
  match decodeCond (field w 20 4) with
  | .listed c => host c
  | .illegal => .illegal w
  | .reserved => .reserved w

/-- Group B, `instr[31:28] = 1101`, selected by `instr[7:5]` (R71, R80, R83). -/
def decodeGroupB (w : Word) : Instr :=
  match (field w 5 3).toNat with
  | 0 => withAlu2 w 4 fun p => .libalu (field w 24 4) (field w 20 4) p (field w 0 4)
  | 1 => withAlu2 w 4 fun p => .sibalu (field w 24 4) (field w 20 4) p (field w 0 4)
  | 2 => withAlu2 w 4 fun p => .lsbalu (field w 24 4) (field w 20 4) p (field w 0 4)
  | 3 => withAlu2 w 4 fun p => .ssbalu (field w 24 4) (field w 20 4) p (field w 0 4)
  | _ => .illegal w

/-- Group C, `instr[31:28] = 1110`, selected by `instr[27:24]` (R71, R83, R85). -/
def decodeGroupC (w : Word) : Instr :=
  match (field w 24 4).toNat with
  | 4 => withAlu2 w 24 fun p => .jibalu (field w 20 4) p (field w 0 8)
  | 5 => withAlu2 w 24 fun p => .jibalu (field w 20 4) p (field w 0 8)
  | 6 => withAlu2 w 24 fun p => .spcalu (field w 20 4) p (field w 0 8)
  | 7 => withAlu2 w 24 fun p => .spcalu (field w 20 4) p (field w 0 8)
  | 8 => .jind (field w 0 24)
  | 9 => .jbind (field w 20 4) (field w 0 20)
  | 10 => .spc (field w 0 24)
  | 11 => .spcb (field w 20 4) (field w 0 20)
  | 12 => .jdrct (field w 0 24)
  | 13 => .jbase (field w 20 4) (field w 0 20)
  | 14 => .bucnd (field w 0 24)
  | _ => .illegal w

/-- The three comparing words, from `instr[27:25]` 000 BCND, 001 TRAP, 010 SCND (R73). An SCND
word with a non-zero low part is reserved (45_setcond_trap.md R241). -/
def decodeBranch (w : Word) : Instr :=
  withCond w fun c => .bcnd c (flag w 24) (field w 16 4) (field w 12 4) (field w 0 12)

/-- TRAP: the code is `instr[11:1]` and bit 0 is ignored but kept (R87). -/
def decodeTrap (w : Word) : Instr :=
  withCond w fun c =>
    .trap c (flag w 24) (field w 16 4) (field w 12 4) (field w 1 11) (flag w 0)

/-- SCND (R73, R241). -/
def decodeSet (w : Word) : Instr :=
  if field w 0 12 = 0 then withCond w fun c => .scnd c (flag w 24) (field w 16 4) (field w 12 4)
  else .reserved w

/-- Group D, `instr[31:28] = 1111`, selected by `instr[27:24]` (R71, R83, R85). -/
def decodeGroupD (w : Word) : Instr :=
  match (field w 24 4).toNat with
  | 0 => decodeBranch w
  | 1 => decodeBranch w
  | 2 => decodeTrap w
  | 3 => decodeTrap w
  | 4 => decodeSet w
  | 5 => decodeSet w
  | 8 => .lds (field w 0 24)
  | 9 => .sts (field w 0 24)
  | 14 => .savepc (field w 0 24)
  | 15 => .jindss (field w 0 24)
  | _ => .illegal w

/-- The instruction a word is read as (R71, R83): total, every word that is no instruction being
named `illegal` (R85) or `reserved` (R86). -/
def decode (w : Word) : Instr :=
  match (field w 28 4).toNat with
  | 4 => withAlu2 w 28 fun p => .lbalu (field w 24 4) (field w 20 4) p (field w 0 8)
  | 5 => withAlu2 w 28 fun p => .lbalu (field w 24 4) (field w 20 4) p (field w 0 8)
  | 6 => withAlu2 w 28 fun p => .sbalu (field w 24 4) (field w 20 4) p (field w 0 8)
  | 7 => withAlu2 w 28 fun p => .sbalu (field w 24 4) (field w 20 4) p (field w 0 8)
  | 8 => .ldl (field w 24 4) (field w 0 24)
  | 9 => .lbi (field w 24 4) (field w 20 4) (field w 0 20)
  | 10 => .std (field w 24 4) (field w 0 24)
  | 11 => .sbi (field w 24 4) (field w 20 4) (field w 0 20)
  | 12 => .ldi (field w 24 4) (field w 0 24)
  | 13 => decodeGroupB w
  | 14 => decodeGroupC w
  | 15 => decodeGroupD w
  | _ => decodeAlu23 w

/-- The host's question: the instruction read from an instruction of `nbits` bits `w`. Every
instruction is one 32-bit word (R70), stored and fetched whole (20_memory.md R55). -/
def decodeTableWord (nbits w : Nat) : Option Instr :=
  if nbits ≤ 32 then some (decode (BitVec.ofNat 32 (w % 2 ^ nbits))) else none

/-! ### The encoder -/

/-- The condition codes (42_control.md R170). -/
def encodeCond : Cond → BitVec 4
  | .lt => 0
  | .ge => 1
  | .le => 2
  | .gt => 3
  | .lo => 4
  | .hs => 5
  | .ls => 6
  | .hi => 7
  | .zand => 8
  | .nzand => 9
  | .zor => 10
  | .nzor => 11
  | .eq => 12
  | .ne => 13

/-- The ALU codes of the two-operand operations (R84). -/
def encodeBin : BinOp → BitVec 4
  | .add => 1
  | .sub => 2
  | .subr => 3
  | .and => 4
  | .or => 5
  | .xor => 6
  | .rlc => 7
  | .xc => 12

/-- The codes 1000 to 1011, of the immediate shifts as ALU codes and of the variable shifts as
implicit-source codes (R84). -/
def encodeShift : ShiftOp → BitVec 4
  | .sll => 8
  | .srl => 9
  | .sra => 10
  | .rol => 11

/-- The implicit-source codes of the moves (41_alu_special.md R130). -/
def encodeSrc : SrcSel → BitVec 4
  | .ap => 2
  | .ma => 3
  | .hi => 4
  | .lo => 5
  | .pc => 7

/-- The implicit-destination codes (41_alu_special.md R143). -/
def encodeDst : DstSel → BitVec 4
  | .ap => 2
  | .ma => 3
  | .hi => 4
  | .lo => 5
  | .pc => 7
  | .msetup => 8
  | .mstep => 9
  | .umend => 10
  | .dstep => 11

/-- The word whose bit i', fields dst, alu.3, src2 and src1 are these (R72). -/
def alu3Word (imm : Bool) (dst op src2 src1 : BitVec 4) : Word :=
  placeFlag imm 29 ||| place dst 24 ||| place op 20 ||| place src2 4 ||| place src1 0

/-- The ALU3 piece's part of its word. -/
def encodeAlu3 : Alu3 → Word
  | .mov imm dst src2 src1 => alu3Word imm dst 0 src2 src1
  | .bin op imm dst src2 src1 => alu3Word imm dst (encodeBin op) src2 src1
  | .ic imm dst src2 src1 => alu3Word imm dst 13 src2 src1
  | .shift op dst src2 n => alu3Word (n.getLsbD 4) dst (encodeShift op) src2 (n.extractLsb' 0 4)
  | .fromSpecial sel imm dst src2 => alu3Word imm dst 14 src2 (encodeSrc sel)
  | .shiftLo op imm dst src2 => alu3Word imm dst 14 src2 (encodeShift op)
  | .not imm dst src2 => alu3Word imm dst 14 src2 12
  | .toSpecial sel imm src2 src1 => alu3Word imm (encodeDst sel) 15 src2 src1

/-- The word whose bit `k` is the flag i and whose fields dst/src, src and alu.2 are these (R82). -/
def alu2Word (k : Nat) (imm : Bool) (dst src op : BitVec 4) : Word :=
  placeFlag imm k ||| place dst 16 ||| place src 12 ||| place op 8

/-- The ALU2 piece's part of a word whose flag i is at bit `k`. -/
def encodeAlu2 (k : Nat) : Alu2 → Word
  | .mov imm dst src => alu2Word k imm dst src 0
  | .bin op imm dst src => alu2Word k imm dst src (encodeBin op)
  | .ic imm dst src => alu2Word k imm dst src 13
  | .shift op dst n => alu2Word k (n.getLsbD 4) dst (n.extractLsb' 0 4) (encodeShift op)
  | .fromSpecial sel imm dst => alu2Word k imm dst (encodeSrc sel) 14
  | .shiftLo op imm dst => alu2Word k imm dst (encodeShift op) 14
  | .not imm dst => alu2Word k imm dst 12 14
  | .toSpecial sel imm src => alu2Word k imm (encodeDst sel) src 15

/-- An ALU23 word (R72, R83). -/
def encodeAlu23 (p3 : Alu3) (p2 : Alu2) : Word := encodeAlu3 p3 ||| encodeAlu2 28 p2

/-- A conditional word from its operands (R73). -/
def encodeHost (c : Cond) : CondHost → Word
  | .branch imm src2 src1 offset =>
    0xF0000000#32 ||| placeFlag imm 24 ||| place (encodeCond c) 20 ||| place src2 16
      ||| place src1 12 ||| place offset 0
  | .trap imm src2 src1 code bit0 =>
    0xF2000000#32 ||| placeFlag imm 24 ||| place (encodeCond c) 20 ||| place src2 16
      ||| place src1 12 ||| place code 1 ||| placeFlag bit0 0
  | .set imm dst src =>
    0xF4000000#32 ||| placeFlag imm 24 ||| place (encodeCond c) 20 ||| place dst 16
      ||| place src 12

/-- The word of an instruction: the match of its row of R83 with its fields in place
(R72 to R80). -/
def encode : Instr → Word
  | .alu23 p3 p2 => encodeAlu23 p3 p2
  | .lbalu dst base p offset =>
    0x40000000#32 ||| place dst 24 ||| place base 20 ||| encodeAlu2 28 p ||| place offset 0
  | .sbalu st base p offset =>
    0x60000000#32 ||| place st 24 ||| place base 20 ||| encodeAlu2 28 p ||| place offset 0
  | .ldl dst address => 0x80000000#32 ||| place dst 24 ||| place address 0
  | .lbi dst base offset => 0x90000000#32 ||| place dst 24 ||| place base 20 ||| place offset 0
  | .std st address => 0xA0000000#32 ||| place st 24 ||| place address 0
  | .sbi st base offset => 0xB0000000#32 ||| place st 24 ||| place base 20 ||| place offset 0
  | .ldi dst data => 0xC0000000#32 ||| place dst 24 ||| place data 0
  | .libalu dst base p index =>
    0xD0000000#32 ||| place dst 24 ||| place base 20 ||| encodeAlu2 4 p ||| place index 0
  | .sibalu st base p index =>
    0xD0000020#32 ||| place st 24 ||| place base 20 ||| encodeAlu2 4 p ||| place index 0
  | .lsbalu dst base p shift =>
    0xD0000040#32 ||| place dst 24 ||| place base 20 ||| encodeAlu2 4 p ||| place shift 0
  | .ssbalu st base p shift =>
    0xD0000060#32 ||| place st 24 ||| place base 20 ||| encodeAlu2 4 p ||| place shift 0
  | .jibalu base p offset => 0xE4000000#32 ||| place base 20 ||| encodeAlu2 24 p ||| place offset 0
  | .spcalu base p offset => 0xE6000000#32 ||| place base 20 ||| encodeAlu2 24 p ||| place offset 0
  | .jind address => 0xE8000000#32 ||| place address 0
  | .jbind base offset => 0xE9000000#32 ||| place base 20 ||| place offset 0
  | .spc address => 0xEA000000#32 ||| place address 0
  | .spcb base offset => 0xEB000000#32 ||| place base 20 ||| place offset 0
  | .jdrct address => 0xEC000000#32 ||| place address 0
  | .jbase base offset => 0xED000000#32 ||| place base 20 ||| place offset 0
  | .bucnd offset => 0xEE000000#32 ||| place offset 0
  | .bcnd c imm src2 src1 offset => encodeHost c (.branch imm src2 src1 offset)
  | .trap c imm src2 src1 code bit0 => encodeHost c (.trap imm src2 src1 code bit0)
  | .scnd c imm dst src => encodeHost c (.set imm dst src)
  | .lds address => 0xF8000000#32 ||| place address 0
  | .sts address => 0xF9000000#32 ||| place address 0
  | .savepc address => 0xFE000000#32 ||| place address 0
  | .jindss address => 0xFF000000#32 ||| place address 0
  | .illegal word => word
  | .reserved word => word
  | .mov3 imm dst src2 src1 => encodeAlu23 (.mov imm dst src2 src1) Alu2.idle
  | .add3 imm dst src2 src1 => encodeAlu23 (.bin .add imm dst src2 src1) Alu2.idle
  | .sub3 imm dst src2 src1 => encodeAlu23 (.bin .sub imm dst src2 src1) Alu2.idle
  | .subr3 imm dst src2 src1 => encodeAlu23 (.bin .subr imm dst src2 src1) Alu2.idle
  | .and3 imm dst src2 src1 => encodeAlu23 (.bin .and imm dst src2 src1) Alu2.idle
  | .or3 imm dst src2 src1 => encodeAlu23 (.bin .or imm dst src2 src1) Alu2.idle
  | .xor3 imm dst src2 src1 => encodeAlu23 (.bin .xor imm dst src2 src1) Alu2.idle
  | .rlc3 imm dst src2 src1 => encodeAlu23 (.bin .rlc imm dst src2 src1) Alu2.idle
  | .xc3 imm dst src2 src1 => encodeAlu23 (.bin .xc imm dst src2 src1) Alu2.idle
  | .ic3 imm dst src2 src1 => encodeAlu23 (.ic imm dst src2 src1) Alu2.idle
  | .sll3 dst src2 n => encodeAlu23 (.shift .sll dst src2 n) Alu2.idle
  | .srl3 dst src2 n => encodeAlu23 (.shift .srl dst src2 n) Alu2.idle
  | .sra3 dst src2 n => encodeAlu23 (.shift .sra dst src2 n) Alu2.idle
  | .rol3 dst src2 n => encodeAlu23 (.shift .rol dst src2 n) Alu2.idle
  | .movApDst3 imm dst src2 => encodeAlu23 (.fromSpecial .ap imm dst src2) Alu2.idle
  | .movMaDst3 imm dst src2 => encodeAlu23 (.fromSpecial .ma imm dst src2) Alu2.idle
  | .movHiDst3 imm dst src2 => encodeAlu23 (.fromSpecial .hi imm dst src2) Alu2.idle
  | .movLoDst3 imm dst src2 => encodeAlu23 (.fromSpecial .lo imm dst src2) Alu2.idle
  | .movPcDst3 imm dst src2 => encodeAlu23 (.fromSpecial .pc imm dst src2) Alu2.idle
  | .sllLo3 imm dst src2 => encodeAlu23 (.shiftLo .sll imm dst src2) Alu2.idle
  | .srlLo3 imm dst src2 => encodeAlu23 (.shiftLo .srl imm dst src2) Alu2.idle
  | .sraLo3 imm dst src2 => encodeAlu23 (.shiftLo .sra imm dst src2) Alu2.idle
  | .rolLo3 imm dst src2 => encodeAlu23 (.shiftLo .rol imm dst src2) Alu2.idle
  | .not3 imm dst src2 => encodeAlu23 (.not imm dst src2) Alu2.idle
  | .movSrcAp3 imm src2 src1 => encodeAlu23 (.toSpecial .ap imm src2 src1) Alu2.idle
  | .movSrcMa3 imm src2 src1 => encodeAlu23 (.toSpecial .ma imm src2 src1) Alu2.idle
  | .movSrcHi3 imm src2 src1 => encodeAlu23 (.toSpecial .hi imm src2 src1) Alu2.idle
  | .movSrcLo3 imm src2 src1 => encodeAlu23 (.toSpecial .lo imm src2 src1) Alu2.idle
  | .movSrcPc3 imm src2 src1 => encodeAlu23 (.toSpecial .pc imm src2 src1) Alu2.idle
  | .msetup3 imm src2 src1 => encodeAlu23 (.toSpecial .msetup imm src2 src1) Alu2.idle
  | .mstep3 imm src2 src1 => encodeAlu23 (.toSpecial .mstep imm src2 src1) Alu2.idle
  | .umend3 imm src2 src1 => encodeAlu23 (.toSpecial .umend imm src2 src1) Alu2.idle
  | .dstep3 imm src2 src1 => encodeAlu23 (.toSpecial .dstep imm src2 src1) Alu2.idle
  | .mov2 imm dst src => encodeAlu23 Alu3.idle (.mov imm dst src)
  | .add2 imm dst src => encodeAlu23 Alu3.idle (.bin .add imm dst src)
  | .sub2 imm dst src => encodeAlu23 Alu3.idle (.bin .sub imm dst src)
  | .subr2 imm dst src => encodeAlu23 Alu3.idle (.bin .subr imm dst src)
  | .and2 imm dst src => encodeAlu23 Alu3.idle (.bin .and imm dst src)
  | .or2 imm dst src => encodeAlu23 Alu3.idle (.bin .or imm dst src)
  | .xor2 imm dst src => encodeAlu23 Alu3.idle (.bin .xor imm dst src)
  | .rlc2 imm dst src => encodeAlu23 Alu3.idle (.bin .rlc imm dst src)
  | .xc2 imm dst src => encodeAlu23 Alu3.idle (.bin .xc imm dst src)
  | .ic2 imm dst src => encodeAlu23 Alu3.idle (.ic imm dst src)
  | .sll2 dst n => encodeAlu23 Alu3.idle (.shift .sll dst n)
  | .srl2 dst n => encodeAlu23 Alu3.idle (.shift .srl dst n)
  | .sra2 dst n => encodeAlu23 Alu3.idle (.shift .sra dst n)
  | .rol2 dst n => encodeAlu23 Alu3.idle (.shift .rol dst n)
  | .movApDst2 imm dst => encodeAlu23 Alu3.idle (.fromSpecial .ap imm dst)
  | .movMaDst2 imm dst => encodeAlu23 Alu3.idle (.fromSpecial .ma imm dst)
  | .movHiDst2 imm dst => encodeAlu23 Alu3.idle (.fromSpecial .hi imm dst)
  | .movLoDst2 imm dst => encodeAlu23 Alu3.idle (.fromSpecial .lo imm dst)
  | .movPcDst2 imm dst => encodeAlu23 Alu3.idle (.fromSpecial .pc imm dst)
  | .sllLo2 imm dst => encodeAlu23 Alu3.idle (.shiftLo .sll imm dst)
  | .srlLo2 imm dst => encodeAlu23 Alu3.idle (.shiftLo .srl imm dst)
  | .sraLo2 imm dst => encodeAlu23 Alu3.idle (.shiftLo .sra imm dst)
  | .rolLo2 imm dst => encodeAlu23 Alu3.idle (.shiftLo .rol imm dst)
  | .not2 imm dst => encodeAlu23 Alu3.idle (.not imm dst)
  | .movSrcAp2 imm src => encodeAlu23 Alu3.idle (.toSpecial .ap imm src)
  | .movSrcMa2 imm src => encodeAlu23 Alu3.idle (.toSpecial .ma imm src)
  | .movSrcHi2 imm src => encodeAlu23 Alu3.idle (.toSpecial .hi imm src)
  | .movSrcLo2 imm src => encodeAlu23 Alu3.idle (.toSpecial .lo imm src)
  | .movSrcPc2 imm src => encodeAlu23 Alu3.idle (.toSpecial .pc imm src)
  | .msetup2 imm src => encodeAlu23 Alu3.idle (.toSpecial .msetup imm src)
  | .mstep2 imm src => encodeAlu23 Alu3.idle (.toSpecial .mstep imm src)
  | .umend2 imm src => encodeAlu23 Alu3.idle (.toSpecial .umend imm src)
  | .dstep2 imm src => encodeAlu23 Alu3.idle (.toSpecial .dstep imm src)
  | .lt h => encodeHost .lt h
  | .ge h => encodeHost .ge h
  | .le h => encodeHost .le h
  | .gt h => encodeHost .gt h
  | .lo h => encodeHost .lo h
  | .hs h => encodeHost .hs h
  | .ls h => encodeHost .ls h
  | .hi h => encodeHost .hi h
  | .zand h => encodeHost .zand h
  | .nzand h => encodeHost .nzand h
  | .zor h => encodeHost .zor h
  | .nzor h => encodeHost .nzor h
  | .eq h => encodeHost .eq h
  | .ne h => encodeHost .ne h

/-- The term the decoder answers for an instruction's word: itself, but for the suffix spellings
of the condition rows, whose words are read as BCND, TRAP and SCND (42_control.md R172). -/
def decodedForm : Instr → Instr
  | .lt h => h.instr .lt
  | .ge h => h.instr .ge
  | .le h => h.instr .le
  | .gt h => h.instr .gt
  | .lo h => h.instr .lo
  | .hs h => h.instr .hs
  | .ls h => h.instr .ls
  | .hi h => h.instr .hi
  | .zand h => h.instr .zand
  | .nzand h => h.instr .nzand
  | .zor h => h.instr .zor
  | .nzor h => h.instr .nzor
  | .eq h => h.instr .eq
  | .ne h => h.instr .ne
  | i => i

end Sys2Proof
end

