-- ==== Sys2Proof/Config.lean ====
section
/-! DEFINITION. What the spec leaves to the implementation or to the start of a run.
The two opaque constants are free values: nothing in Lean can evaluate them or prove a value of
them. The rest are values named for `State.reset`, each with its assumption-log entry. -/

namespace Sys2Proof

/-- The words from `first` to `last`, both included: a set of words as plain data. -/
structure Span where
  first : Word
  last : Word
deriving DecidableEq, Repr

/-- `SupOf` as the machine starts with it: the Surprise-register words that, once enabled, mean
supervisor state. A model argument the source does not settle (60_exceptions.md R256, D14, U10; log
entry 5). Free. -/
opaque Config.supWords : List Span

/-- The n-th word drawn for the bits 0 and 31:13 of SUreg, which a taken trap leaves
unconstrained (60_exceptions.md R259, D12; log entry 6). Free. -/
opaque Config.freeWord : Nat → Word

/-- The entry address `s` of `InitialState` (70_reset_and_hazards.md R280): the spec gives none.
DESIGN CHOICE, unsafe (log entry 2). -/
def Config.entry : Word := 0x100

/-- The value of every register whose reset value the spec does not give (10_state.md R44).
DESIGN CHOICE, unsafe (log entry 1). -/
def Config.resetWord : Word := 0

end Sys2Proof
end

