-- ==== Sys2Proof/Machine/State.lean ====
section
/-! DEFINITION. The machine's state as plain data (10_state.md §1), the reasons a step can stop
(60_exceptions.md R252) and the state after reset (10_state.md R44, 70_reset_and_hazards.md R280). -/

namespace Sys2Proof.Machine

/-- The Surprise setting an instruction executes under (10_state.md R26, 60_exceptions.md R256):
an SUreg word that a JINDSS enabled, or the setting a taken trap installs. -/
inductive Setting where
  | enabled (w : Word)
  | trapped
deriving DecidableEq, Repr

/-- Memory as its listed bytes. The byte number k of the word at address w (20_memory.md R55) has
the key 4*w + k, the byte pointer of R53. Its canonical form is `Memory.wf` (Memory.lean). -/
abbrev Memory := List Host.Cell

/-- Why the machine stops with a fault. -/
inductive Fault where
  /-- An access to an address that does not exist: a fetch outside `CodeDomain`, or a load or store
  outside `MemDomain` (20_memory.md R51, R57, R64). Raised by the fetch and by every instruction
  with a data access. Safe: the spec says nothing of what the hardware does there. -/
  | badAddress (a : Word)
deriving DecidableEq, Repr

/-- Why an instruction is refused. -/
inductive Refusal where
  /-- An instruction with no meaning yet. Raised by `exec`'s arms only. Safe. -/
  | notModelled (mnemonic : String)
  /-- A word that is no instruction, or with an illegal ALU piece (30_encoding.md R85,
  60_exceptions.md R253). Raised by `illegal`. Safe. -/
  | illegalInstruction (word : Word)
  /-- A reserved code: "unpredictable behavior" (R86, R254). Raised by `reserved`. Safe. -/
  | reservedOperation (word : Word)
  /-- A privileged operation in user state (R255, R265). Raised by the Ap and Ma moves, LDS, STS,
  SAVEPC and JINDSS. Safe: the spec gives no consequence. -/
  | privilegeViolation (word : Word)
  /-- A use of the register the instruction just before loads (70_reset_and_hazards.md R285).
  Raised by every instruction that names a general register. Safe. -/
  | loadDelayViolation (word : Word)
  /-- An access to PC(current) in OD directly after an indirect jump (R287). Raised by BCND, BUCND,
  JBASE, JDRCT and the ALU3 pieces `mov src,PC` and `mov PC,dst`. Safe. -/
  | pcAccessConflict (word : Word)
  /-- A store's data register that its own ALU2 piece writes (R286), or a TRAP directly after an LDS
  (R288). Raised by SBALU, SIBALU, SSBALU and TRAP. Safe. -/
  | registerConflict (word : Word)
  /-- A store into the program (20_memory.md R64). Raised by every storing instruction. Safe. -/
  | storeToCode (a : Word)
deriving DecidableEq, Repr

/-- The state. While an instruction executes, `pc0`, `pc1`, `pc2` hold what R37 calls `next0`,
`next1`, `next2` (see `advance`, Ops.lean). -/
structure State where
  /-- x[0..15], the general registers R0 to R15 (R20). -/
  regs : Vector Word 16
  /-- The address of the instruction to execute (R36). -/
  pc0 : Word
  /-- The address of the instruction after it (R36). -/
  pc1 : Word
  /-- The address of the second instruction after it, unless it is changed (R36). -/
  pc2 : Word
  /-- PC(-3) as SAVEPC sees it (R35, R40). -/
  pcm : Word
  /-- PC(+1): a conditional branch's destination (R34). -/
  pcp1 : Word
  /-- The memory address register (R23). -/
  mar : Word
  /-- The sign-extended displacement, address or data of an instruction (R24). -/
  disp : Word
  /-- The Surprise register (R25). -/
  suReg : Word
  /-- The Surprise setting the instruction at `pc0` executes under (R26). -/
  suCur : Setting
  /-- The setting the instruction at `pc1` will execute under (R26). -/
  suNxt : Setting
  /-- Ap, "Aphid" (R27). -/
  ap : Word
  /-- Ma, "MA" (R28). -/
  ma : Word
  /-- Hi (R30). -/
  hi : Word
  /-- Lo (R31). -/
  lo : Word
  /-- Db, the bit of the last Booth step (R32). -/
  db : Bool
  /-- Mp, the main memory (R42). -/
  mem : Memory
  /-- `MemDomain`: the addresses that hold memory (20_memory.md R51, R54). No instruction changes
  it. -/
  memDomain : List Span
  /-- `CodeDomain`: the program's addresses, as far as they hold memory (20_memory.md R64). No
  instruction changes it. -/
  codeDomain : List Span
  /-- `SupOf`: the Surprise-register words that mean supervisor state (60_exceptions.md R256). No
  instruction changes it. -/
  supWords : List Span
  /-- The destination of the load executed just before, if it was one (R292). -/
  ldPrev : Option Reg
  /-- Whether an indirect jump was executed just before (R292). -/
  jd2Prev : Bool
  /-- Whether LDS was executed just before (R292). -/
  ldsPrev : Bool
  /-- The model's own counter of the free words drawn at taken traps (R259). -/
  draws : Nat
deriving DecidableEq, Repr

/-- The machine right after reset. The spec gives no reset value (R44, R280): every value here is
the model's, named in the log (entries 1 to 5, 8, 9); memory lists nothing. -/
def State.reset : State where
  regs := Vector.replicate 16 Config.resetWord
  pc0 := Config.entry
  pc1 := Config.entry + 1
  pc2 := Config.entry + 2
  pcm := Config.resetWord
  pcp1 := Config.resetWord
  mar := Config.resetWord
  disp := Config.resetWord
  suReg := Config.resetWord
  suCur := .trapped
  suNxt := .trapped
  ap := Config.resetWord
  ma := Config.resetWord
  hi := Config.resetWord
  lo := Config.resetWord
  db := false
  mem := []
  memDomain := [⟨0, 0xFFFFFFFF⟩]
  codeDomain := []
  supWords := Config.supWords
  ldPrev := none
  jd2Prev := false
  ldsPrev := false
  draws := 0

end Sys2Proof.Machine
end

