-- ==== Sys2Proof/Machine/Memory.lean ====
section
/-! DEFINITION. Memory: bytes in one canonical form, and the word of 20_memory.md R50, R51 and R55
built from four of them. -/

namespace Sys2Proof.Machine

/-- What a byte of memory reads as that nothing has written: the spec leaves the memory image to
`InitialState` (70_reset_and_hazards.md R280). DESIGN CHOICE, unsafe (log entry 3). -/
def unlistedByte : Byte := 0

/-- One past the greatest key: four bytes for each of 2^32 word addresses (R2, R50). -/
def keyLimit : Nat := 2 ^ 34

/-- The byte at a key. -/
def Memory.byte : Memory → Nat → Byte
  | [], _ => unlistedByte
  | (k, v) :: m, p => if k = p then v else Memory.byte m p

/-- Write one byte, keeping the canonical form: the entry goes when the byte becomes what an
unlisted key reads as. -/
def Memory.setByte : Memory → Nat → Byte → Memory
  | [], p, b => if b = unlistedByte then [] else [(p, b)]
  | (k, v) :: m, p, b =>
    if p < k then
      if b = unlistedByte then (k, v) :: m else (p, b) :: (k, v) :: m
    else if p = k then
      if b = unlistedByte then m else (p, b) :: m
    else (k, v) :: Memory.setByte m p b

/-- The canonical form above a bound: keys strictly rising from `low` on, below `keyLimit`, and no
entry equal to what an unlisted key reads as. -/
def Memory.wfFrom : Nat → Memory → Bool
  | _, [] => true
  | low, (k, v) :: m =>
    decide (low ≤ k) && decide (k < keyLimit) && (v != unlistedByte) && Memory.wfFrom (k + 1) m

/-- The canonical form of a memory: equal memories are equal lists. -/
def Memory.wf (m : Memory) : Bool := Memory.wfFrom 0 m

/-- The key of byte number `k` of the word at `a`: the byte pointer 4*a + k (R53, R55). -/
def byteKey (a : Word) (k : Nat) : Nat := 4 * a.toNat + k

/-- Byte number `k` of a word: bits 8k+7 to 8k (R55). -/
def byteOf (v : Word) (k : Nat) : Byte := v.extractLsb' (8 * k) 8

/-- `Mp[a]`: the word at a word address, byte 3 its most significant byte (R50, R55). -/
def Memory.word (m : Memory) (a : Word) : Word :=
  m.byte (byteKey a 3) ++ m.byte (byteKey a 2) ++ m.byte (byteKey a 1) ++ m.byte (byteKey a 0)

/-- `Mp[a] <- v`, one indivisible word (R51, R58). -/
def Memory.setWord (m : Memory) (a v : Word) : Memory :=
  (((m.setByte (byteKey a 0) (byteOf v 0)).setByte (byteKey a 1) (byteOf v 1)).setByte
    (byteKey a 2) (byteOf v 2)).setByte (byteKey a 3) (byteOf v 3)

/-- Whether some span holds an address. -/
def inSpans (spans : List Span) (a : Word) : Bool :=
  spans.any fun r => decide (r.first ≤ a) && decide (a ≤ r.last)

/-- Whether an address is in `MemDomain` (R51). -/
def memAddr (s : State) (a : Word) : Bool := inSpans s.memDomain a

/-- Whether an address is in `CodeDomain`, a subset of `MemDomain` (R64). -/
def codeAddr (s : State) (a : Word) : Bool := inSpans s.codeDomain a && memAddr s a

end Sys2Proof.Machine
end

