-- ==== Sys2Proof/Machine/AluOps.lean ====
section
/-! DEFINITION. The results of the ALU operations as functions of their operands (40_alu.md R104 to
R119), and the multiply and divide steps (41_alu_special.md R151 to R155). A is the first operand,
B the second; no operation stops, and every result is 32 bits. -/

namespace Sys2Proof.Machine

/-- `rlc`: B shifted left by `Lo[4:0]`, the high bits of A entering at the right (R112). -/
def combinedShift (a b lo : Word) : Word :=
  let sc := (lo.extractLsb' 0 5).toNat
  if sc = 0 then b else (b <<< sc) ||| (a >>> (32 - sc))

/-- `xc`: the byte of B that the two low bits of A number, zero-extended (R118). -/
def extractChar (a b : Word) : Word := (byteOf b (a.extractLsb' 0 2).toNat).setWidth 32

/-- `ic`: the low byte of A put at the byte of the old destination that the two low bits of Lo
number (R119). -/
def insertChar (a old lo : Word) : Word :=
  let k := (lo.extractLsb' 0 2).toNat
  (old &&& ~~~((0xFF : Word) <<< (8 * k))) ||| ((byteOf a 0).setWidth 32 <<< (8 * k))

/-- The two-operand operations (R106 to R112, R118). Sums and differences wrap modulo 2^32 and
nothing is recorded (R122). -/
def binResult (op : BinOp) (a b lo : Word) : Word :=
  match op with
  | .add => a + b
  | .sub => b - a
  | .subr => a - b
  | .and => a &&& b
  | .or => a ||| b
  | .xor => a ^^^ b
  | .rlc => combinedShift a b lo
  | .xc => extractChar a b

/-- The shifts by a count 0 to 31 (R114 to R117; R137 to R140 with the count from Lo). -/
def shiftResult (op : ShiftOp) (b : Word) (n : BitVec 5) : Word :=
  match op with
  | .sll => b <<< n.toNat
  | .srl => b >>> n.toNat
  | .sra => b.sshiftRight n.toNat
  | .rol => if n = 0 then b else (b <<< n.toNat) ||| (b >>> (32 - n.toNat))

/-- The multiple of the multiplicand that a multiply step adds: the Booth table over `Lo<1>`,
`Lo<0>` and Db (R151). -/
def boothMultiple (lo1 lo0 db : Bool) : Int :=
  match lo1, lo0, db with
  | false, false, false => 0
  | false, false, true => 1
  | false, true, false => 1
  | false, true, true => 2
  | true, false, false => -2
  | true, false, true => -1
  | true, true, false => -1
  | true, true, true => 0

/-- Hi, Lo and Db as the steps read and write them. -/
structure MulDiv where
  hi : Word
  lo : Word
  db : Bool
deriving DecidableEq, Repr

/-- `mstep`: one two-bit Booth step with multiplicand A. The sum is a 34-bit two's complement
value, written to Hi and the two high bits of Lo; Db takes the old bit 1 of Lo (R152). -/
def mulStep (a : Word) (r : MulDiv) : MulDiv :=
  let k := boothMultiple (r.lo.getLsbD 1) (r.lo.getLsbD 0) r.db
  let sum : BitVec 34 := BitVec.ofInt 34 (r.hi.toInt + k * a.toInt)
  { hi := sum.extractLsb' 2 32
    lo := sum.extractLsb' 0 2 ++ r.lo.extractLsb' 2 30
    db := r.lo.getLsbD 1 }

/-- `msetup`: clear Db, then a multiply step (R153). -/
def mulSetup (a : Word) (r : MulDiv) : MulDiv := mulStep a { r with db := false }

/-- `umend`: add A to Hi if Db is set; Lo and Db unchanged (R154). -/
def mulUnsignedEnd (a : Word) (r : MulDiv) : MulDiv :=
  if r.db then { r with hi := r.hi + a } else r

/-- `dstep`: one non-restoring divide step with divisor A; Db is not used (R155). -/
def divStep (a : Word) (r : MulDiv) : MulDiv :=
  let shifted : Word := r.hi.extractLsb' 0 31 ++ r.lo.extractLsb' 31 1
  let hi := if r.hi.getLsbD 31 then shifted + a else shifted - a
  { hi := hi
    lo := r.lo.extractLsb' 0 31 ++ BitVec.ofBool (!hi.getLsbD 31)
    db := r.db }

end Sys2Proof.Machine
end

