-- ==== Sys2Proof/Machine/Ops.lean ====
section
/-! DEFINITION. The named operations over the state: registers, sequencing, taking a trap and
returning from one, memory access, and what every instruction does before its stages. -/

namespace Sys2Proof.Machine

/-- What a meaning answers. -/
abbrev Result := Host.Outcome State Fault Refusal

/-- Go on with a value, or stop where it stops. -/
def andThen {α β : Type} (x : Host.Outcome α Fault Refusal)
    (f : α → Host.Outcome β Fault Refusal) : Host.Outcome β Fault Refusal :=
  match x with
  | .next a => f a
  | .fault r => .fault r
  | .refused r => .refused r

/-! ### Registers -/

/-- Read x[n] (10_state.md R20: all sixteen are ordinary). -/
def reg (s : State) (n : Reg) : Word := s.regs[n.toNat]'n.isLt

/-- Write x[n]. -/
def setReg (s : State) (n : Reg) (v : Word) : State := { s with regs := s.regs.set n.toNat v n.isLt }

/-- Write Disp, in ID (R24). -/
def setDisp (s : State) (v : Word) : State := { s with disp := v }

/-- Write MAR, in OD (R23). -/
def setMar (s : State) (v : Word) : State := { s with mar := v }

/-- Write PC(+1), in the OD stage of a conditional branch (R34). -/
def setPcp1 (s : State) (v : Word) : State := { s with pcp1 := v }

/-- Write Ap (R27). -/
def setAp (s : State) (v : Word) : State := { s with ap := v }

/-- Write Ma (R28). -/
def setMa (s : State) (v : Word) : State := { s with ma := v }

/-- Write Hi (R30). -/
def setHi (s : State) (v : Word) : State := { s with hi := v }

/-- Write Lo (R31). -/
def setLo (s : State) (v : Word) : State := { s with lo := v }

/-- Hi, Lo and Db together. -/
def mulDiv (s : State) : MulDiv := ⟨s.hi, s.lo, s.db⟩

/-- Write Hi, Lo and Db together. -/
def setMulDiv (s : State) (r : MulDiv) : State := { s with hi := r.hi, lo := r.lo, db := r.db }

/-! ### Sequencing (10_state.md §6.3) -/

/-- The sequencing of every step, done before the stage actions instead of after them: from here on
`pc0`, `pc1`, `pc2` are R37's `next0`, `next1`, `next2`, which is what the stage actions read and
write; `su_cur` has taken `su_nxt` (R26), `pcm` the address of this instruction, and the bookkeeping
of R292 is empty until the instruction sets it. -/
def advance (s : State) : State :=
  { s with
    pc0 := s.pc1, pc1 := s.pc2, pc2 := s.pc2 + 1, pcm := s.pc0, suCur := s.suNxt,
    ldPrev := none, jd2Prev := false, ldsPrev := false }

/-- PC(current) in the OD stage: `next0` (R37). -/
def pcInOd (t : State) : Word := t.pc0

/-- PC(current) in the SX stage: `next1` as it then stands (R37). -/
def pcInSx (t : State) : Word := t.pc1

/-- `JumpD1(v)`: PC(current) written in OD or SX; one delay slot (R38). -/
def jumpD1 (t : State) (v : Word) : State := { t with pc1 := v, pc2 := v + 1 }

/-- `JumpD2(v)`: PC(current) written in OF; two delay slots (R38). Only the indirect jumps do this,
so it also notes one for the instruction after (70_reset_and_hazards.md R292). -/
def jumpD2 (t : State) (v : Word) : State := { t with pc2 := v, jd2Prev := true }

/-- PC(-1) at the start of the OF slot of the instruction a state is about to execute: the address of
the instruction after it, just fetched (R35, R40). No instruction reads it. -/
def pcMinus1 (s : State) : Word := s.pc1

/-- PC(-2) then: the instruction's own address (R40). No instruction reads it. -/
def pcMinus2 (s : State) : Word := s.pc0

/-- PC(-3) then: the address of the instruction fetched just before it, which SAVEPC stores (R40). -/
def pcMinus3 (s : State) : Word := s.pcm

/-! ### Taking a trap, and returning from one -/

/-- The bits 12 to 1 of SUreg, which hold the trap code (R25). -/
def trapCodeMask : Word := 0x1FFE

/-- The OD stage of TRAP: the 12 bits of the sign-extended code go to `SUreg[12:1]`, and the other
bits stay (45_setcond_trap.md R244). It happens whether or not the trap is taken. -/
def setTrapCode (t : State) (v : Word) : State :=
  { t with
    suReg := (t.suReg &&& ~~~trapCodeMask) ||| ((v.extractLsb' 0 12).setWidth 32 <<< 1) }

/-- TAKING THE TRAP (60_exceptions.md R257, items 2 to 4). The instruction already fetched is
annulled and execution goes on at location 0 (10_state.md R39); `pcm` is the annulled instruction's
address; the setting becomes `TRAPPED` (R258); the bits of SUreg outside the code become free
(R259). Nothing else changes. -/
def takeTrap (t : State) : State :=
  { t with
    pc0 := 0, pc1 := 1, pc2 := 2, pcm := t.pc0, suCur := .trapped, suNxt := .trapped,
    suReg := (t.suReg &&& trapCodeMask) ||| (Config.freeWord t.draws &&& ~~~trapCodeMask),
    draws := t.draws + 1 }

/-- RETURNING FROM THE TRAP, with the jump of JINDSS: the Surprise setting seen two instructions
later is the SUreg word enabled in SX (R26; 42_control.md R180; 60_exceptions.md R263). -/
def enableSu (t : State) (v : Word) : State := { t with suNxt := .enabled v }

/-- `Supervisor(su_cur)` (60_exceptions.md R256, R258). -/
def supervisor (s : State) : Bool :=
  match s.suCur with
  | .trapped => true
  | .enabled w => inSpans s.supWords w

/-! ### Memory access -/

/-- Replace the memory. -/
def setMem (t : State) (m : Memory) : State := { t with mem := m }

/-- `MemRead(a, 1)` (20_memory.md R51). -/
def memRead (t : State) (a : Word) : Host.Outcome Word Fault Refusal :=
  if memAddr t a then .next (t.mem.word a) else .fault (.badAddress a)

/-- `MemWrite(a, 1, v)` (20_memory.md R51, R64). -/
def memWrite (t : State) (a v : Word) : Result :=
  if memAddr t a then
    if codeAddr t a then .refused (.storeToCode a) else .next (setMem t (t.mem.setWord a v))
  else .fault (.badAddress a)

/-- Instruction fetch: `MemRead(pc0, 1)` with `pc0` in `CodeDomain` (20_memory.md R51, R64). -/
def fetch (s : State) : Host.Outcome Word Fault Refusal :=
  if codeAddr s s.pc0 then .next (s.mem.word s.pc0) else .fault (.badAddress s.pc0)

/-- A load's OF stage: x[dst] takes the word, and the load is noted for the instruction after
(43_load.md R200; 70_reset_and_hazards.md R292). -/
def loadReg (t : State) (dst : Reg) (v : Word) : State :=
  { setReg t dst v with ldPrev := some dst }

/-- The OF stage of LDS: all of SUreg is replaced, and LDS is noted (43_load.md R207; R292). -/
def loadSu (t : State) (v : Word) : State := { t with suReg := v, ldsPrev := true }

/-! ### What comes before the stages -/

/-- What the checks of 60_exceptions.md R262, items 3 and 4, must know of an instruction. -/
structure Uses where
  /-- Its word, for the refusal's name. -/
  word : Word
  /-- The general registers it reads or writes in any stage (10_state.md R21). -/
  regs : List Reg := []
  /-- Whether it holds a privileged operation (60_exceptions.md R255). -/
  privileged : Bool := false
  /-- Whether it reads or writes PC(current) in OD (70_reset_and_hazards.md R287). -/
  pcInOd : Bool := false
  /-- Whether it is in the register conflict of R286 or R288. -/
  conflict : Bool := false
deriving DecidableEq, Repr

/-- Whether one of these registers is the destination of the load executed just before (R285). -/
def loadPending (s : State) (rs : List Reg) : Bool :=
  match s.ldPrev with
  | none => false
  | some r => decide (r ∈ rs)

/-- One instruction: privilege, then the hazards (60_exceptions.md R262), then its stage actions on
the advanced state (10_state.md R37). -/
def issue (u : Uses) (s : State) (stages : State → Result) : Result :=
  if u.privileged && !supervisor s then .refused (.privilegeViolation u.word)
  else if loadPending s u.regs then .refused (.loadDelayViolation u.word)
  else if u.pcInOd && s.jd2Prev then .refused (.pcAccessConflict u.word)
  else if u.conflict then .refused (.registerConflict u.word)
  else stages (advance s)

end Sys2Proof.Machine
end

