-- ==== Sys2Proof/Machine/Operands.lean ====
section
/-! DEFINITION. Operand assembly (30_encoding.md R81; 40_alu.md R101, R102), the general registers a
piece uses (10_state.md R21), and the address forms of the memory instructions. -/

namespace Sys2Proof.Machine

/-- Sign extension of an n-bit field to a word (00_scope.md R7). -/
def sext {n : Nat} (v : BitVec n) : Word := v.signExtend 32

/-- Zero extension of a 4-bit literal (R81). -/
def zext4 (v : BitVec 4) : Word := v.setWidth 32

/-- A first operand: a 4-bit literal, or a register (R81). -/
def operand (t : State) (imm : Bool) (src : Reg) : Word := if imm then zext4 src else reg t src

/-- The register a first operand reads, if any (R21). -/
def operandRegs (imm : Bool) (src : Reg) : List Reg := if imm then [] else [src]

/-- The first operand of an ALU3 `mov`: with i' = 1 the 8-bit signed literal `src2 || src1`
(40_alu.md R105). -/
def mov3Operand (t : State) (imm : Bool) (src2 src1 : Reg) : Word :=
  if imm then sext (src2 ++ src1 : BitVec 8) else reg t src1

/-- The shift count of the variable shifts: `Lo[4:0]` (41_alu_special.md R137). -/
def loCount (t : State) : BitVec 5 := t.lo.extractLsb' 0 5

/-- The general registers an ALU3 piece reads or writes (R21, R101, R130, R143). -/
def alu3Regs : Alu3 → List Reg
  | .mov imm dst _ src1 => dst :: operandRegs imm src1
  | .bin _ imm dst src2 src1 => dst :: src2 :: operandRegs imm src1
  | .ic imm dst _ src1 => dst :: operandRegs imm src1
  | .shift _ dst src2 _ => [dst, src2]
  | .fromSpecial _ _ dst _ => [dst]
  | .shiftLo _ _ dst src2 => [dst, src2]
  | .not _ dst src2 => [dst, src2]
  | .toSpecial _ imm _ src1 => operandRegs imm src1

/-- The general registers an ALU2 piece reads or writes (R21, R102, R130, R143). -/
def alu2Regs : Alu2 → List Reg
  | .mov imm dst src => dst :: operandRegs imm src
  | .bin _ imm dst src => dst :: operandRegs imm src
  | .ic imm dst src => dst :: operandRegs imm src
  | .shift _ dst _ => [dst]
  | .fromSpecial _ _ dst => [dst]
  | .shiftLo _ _ dst => [dst]
  | .not _ dst => [dst]
  | .toSpecial _ imm src => operandRegs imm src

/-- The general register an ALU2 piece writes; none for code 1111 (41_alu_special.md R143). -/
def alu2Dst : Alu2 → Option Reg
  | .mov _ dst _ => some dst
  | .bin _ _ dst _ => some dst
  | .ic _ dst _ => some dst
  | .shift _ dst _ => some dst
  | .fromSpecial _ _ dst => some dst
  | .shiftLo _ _ dst => some dst
  | .not _ dst => some dst
  | .toSpecial _ _ _ => none

/-- The general register an ALU3 piece writes; none for code 1111. -/
def alu3Dst : Alu3 → Option Reg
  | .mov _ dst _ _ => some dst
  | .bin _ _ dst _ _ => some dst
  | .ic _ dst _ _ => some dst
  | .shift _ dst _ _ => some dst
  | .fromSpecial _ _ dst _ => some dst
  | .shiftLo _ _ dst _ => some dst
  | .not _ dst _ => some dst
  | .toSpecial _ _ _ _ => none

/-- The privileged implicit-source moves (60_exceptions.md R255). -/
def srcPrivileged (sel : SrcSel) : Bool := sel == .ap || sel == .ma

/-- The privileged implicit-destination moves (60_exceptions.md R255). -/
def dstPrivileged (sel : DstSel) : Bool := sel == .ap || sel == .ma

/-- Whether an ALU3 piece is a privileged operation (R255). -/
def alu3Privileged : Alu3 → Bool
  | .fromSpecial sel _ _ _ => srcPrivileged sel
  | .toSpecial sel _ _ _ => dstPrivileged sel
  | _ => false

/-- Whether an ALU2 piece is a privileged operation (R255). -/
def alu2Privileged : Alu2 → Bool
  | .fromSpecial sel _ _ => srcPrivileged sel
  | .toSpecial sel _ _ => dstPrivileged sel
  | _ => false

/-- Whether an ALU3 piece reads or writes PC(current), in OD (70_reset_and_hazards.md R287). -/
def alu3Pc : Alu3 → Bool
  | .fromSpecial sel _ _ _ => sel == .pc
  | .toSpecial sel _ _ _ => sel == .pc
  | _ => false

/-- The value an implicit-source move reads; `pc` is PC(current) in the piece's own stage
(41_alu_special.md R132 to R136). -/
def specialValue (t : State) (sel : SrcSel) (pc : Word) : Word :=
  match sel with
  | .ap => t.ap
  | .ma => t.ma
  | .hi => t.hi
  | .lo => t.lo
  | .pc => pc

/-- What an implicit-destination piece does with its operand (41_alu_special.md R145 to R155). -/
def writeSpecial (t : State) (sel : DstSel) (a : Word) : State :=
  match sel with
  | .ap => setAp t a
  | .ma => setMa t a
  | .hi => setHi t a
  | .lo => setLo t a
  | .pc => jumpD1 t a
  | .msetup => setMulDiv t (mulSetup a (mulDiv t))
  | .mstep => setMulDiv t (mulStep a (mulDiv t))
  | .umend => setMulDiv t (mulUnsignedEnd a (mulDiv t))
  | .dstep => setMulDiv t (divStep a (mulDiv t))

/-- The ALU3 piece, in OD: operands, operation, destination (40_alu.md R101). -/
def runAlu3 (p : Alu3) (t : State) : State :=
  match p with
  | .mov imm dst src2 src1 => setReg t dst (mov3Operand t imm src2 src1)
  | .bin op imm dst src2 src1 =>
    setReg t dst (binResult op (operand t imm src1) (reg t src2) t.lo)
  | .ic imm dst _ src1 => setReg t dst (insertChar (operand t imm src1) (reg t dst) t.lo)
  | .shift op dst src2 n => setReg t dst (shiftResult op (reg t src2) n)
  | .fromSpecial sel _ dst _ => setReg t dst (specialValue t sel (pcInOd t))
  | .shiftLo op _ dst src2 => setReg t dst (shiftResult op (reg t src2) (loCount t))
  | .not _ dst src2 => setReg t dst (~~~(reg t src2))
  | .toSpecial sel imm _ src1 => writeSpecial t sel (operand t imm src1)

/-- The ALU2 piece, in SX: the second operand is the destination register (40_alu.md R102). -/
def runAlu2 (p : Alu2) (t : State) : State :=
  match p with
  | .mov imm dst src => setReg t dst (operand t imm src)
  | .bin op imm dst src => setReg t dst (binResult op (operand t imm src) (reg t dst) t.lo)
  | .ic imm dst src => setReg t dst (insertChar (operand t imm src) (reg t dst) t.lo)
  | .shift op dst n => setReg t dst (shiftResult op (reg t dst) n)
  | .fromSpecial sel _ dst => setReg t dst (specialValue t sel (pcInSx t))
  | .shiftLo op _ dst => setReg t dst (shiftResult op (reg t dst) (loCount t))
  | .not _ dst => setReg t dst (~~~(reg t dst))
  | .toSpecial sel imm src => writeSpecial t sel (operand t imm src)

/-- The store-plus-ALU2 conflict: the data register is the one the piece writes
(44_store.md R220). -/
def storeConflict (st : Reg) (p : Alu2) : Bool := decide (alu2Dst p = some st)

/-- The address forms of the memory instructions (43_load.md R200): based, base plus index, base
shifted right arithmetically, and direct. -/
inductive Address where
  | based {n : Nat} (base : Reg) (offset : BitVec n)
  | indexed (base index : Reg)
  | shifted (base : Reg) (shift : BitVec 4)
  | direct (address : BitVec 24)

/-- The general registers an address form reads, in OD (R21). -/
def addressRegs : Address → List Reg
  | .based base _ => [base]
  | .indexed base index => [base, index]
  | .shifted base _ => [base]
  | .direct _ => []

/-- The word address a form gives (43_load.md R201 to R205). -/
def addressOf (t : State) : Address → Word
  | .based base offset => reg t base + sext offset
  | .indexed base index => reg t base + reg t index
  | .shifted base shift => (reg t base).sshiftRight shift.toNat
  | .direct address => sext address

/-- The Disp a form assembles in ID; the indexed and shifted forms have none (R24, R203, R204). -/
def addressDisp : Address → Option Word
  | .based _ offset => some (sext offset)
  | .indexed _ _ => none
  | .shifted _ _ => none
  | .direct address => some (sext address)

/-- The ID and OD stages of a memory instruction: Disp where the form has one (R24), then MAR
(R23). -/
def formAddress (t : State) (a : Address) : State :=
  match addressDisp a with
  | some d => setMar (setDisp t d) (addressOf t a)
  | none => setMar t (addressOf t a)

end Sys2Proof.Machine
end

