-- ==== Sys2Proof/Machine/Alu.lean ====
section
/-! DEFINITION. The ALU23 instruction (40_alu.md R100): its two pieces packed, and each piece
alone in its word, beside the idle other piece (30_encoding.md R89), under its own row. -/

namespace Sys2Proof.Machine

/-- An ALU23 word: the ALU3 piece in OD, then the ALU2 piece in SX, which sees what the first left
(R100, R103). -/
def packed (p3 : Alu3) (p2 : Alu2) (s : State) : Result :=
  issue
    { word := encodeAlu23 p3 p2
      regs := alu3Regs p3 ++ alu2Regs p2
      privileged := alu3Privileged p3 || alu2Privileged p2
      pcInOd := alu3Pc p3 }
    s fun t => .next (runAlu2 p2 (runAlu3 p3 t))

/-- An ALU3 piece alone: its ALU23 word has the idle ALU2 piece. -/
def single3 (p : Alu3) (s : State) : Result := packed p Alu2.idle s

/-- An ALU2 piece alone: its ALU23 word has the idle ALU3 piece. -/
def single2 (p : Alu2) (s : State) : Result := packed Alu3.idle p s

/-- ALU23 (R100). -/
def execAlu23 (p3 : Alu3) (p2 : Alu2) (s : State) : Result := packed p3 p2 s

/-! ### The ALU3 rows -/

/-- `mov` as an ALU3 piece (R105). -/
def execMov3 (imm : Bool) (dst src2 src1 : Reg) (s : State) : Result :=
  single3 (.mov imm dst src2 src1) s

/-- `add` as an ALU3 piece (R106). -/
def execAdd3 (imm : Bool) (dst src2 src1 : Reg) (s : State) : Result :=
  single3 (.bin .add imm dst src2 src1) s

/-- `sub` as an ALU3 piece (R107). -/
def execSub3 (imm : Bool) (dst src2 src1 : Reg) (s : State) : Result :=
  single3 (.bin .sub imm dst src2 src1) s

/-- `subr` as an ALU3 piece (R108). -/
def execSubr3 (imm : Bool) (dst src2 src1 : Reg) (s : State) : Result :=
  single3 (.bin .subr imm dst src2 src1) s

/-- `and` as an ALU3 piece (R109). -/
def execAnd3 (imm : Bool) (dst src2 src1 : Reg) (s : State) : Result :=
  single3 (.bin .and imm dst src2 src1) s

/-- `or` as an ALU3 piece (R110). -/
def execOr3 (imm : Bool) (dst src2 src1 : Reg) (s : State) : Result :=
  single3 (.bin .or imm dst src2 src1) s

/-- `xor` as an ALU3 piece (R111). -/
def execXor3 (imm : Bool) (dst src2 src1 : Reg) (s : State) : Result :=
  single3 (.bin .xor imm dst src2 src1) s

/-- `rlc` as an ALU3 piece (R112). -/
def execRlc3 (imm : Bool) (dst src2 src1 : Reg) (s : State) : Result :=
  single3 (.bin .rlc imm dst src2 src1) s

/-- `xc` as an ALU3 piece (R118). -/
def execXc3 (imm : Bool) (dst src2 src1 : Reg) (s : State) : Result :=
  single3 (.bin .xc imm dst src2 src1) s

/-- `ic` as an ALU3 piece (R119). -/
def execIc3 (imm : Bool) (dst src2 src1 : Reg) (s : State) : Result :=
  single3 (.ic imm dst src2 src1) s

/-- `sll` as an ALU3 piece (R114). -/
def execSll3 (dst src2 : Reg) (n : BitVec 5) (s : State) : Result :=
  single3 (.shift .sll dst src2 n) s

/-- `srl` as an ALU3 piece (R115). -/
def execSrl3 (dst src2 : Reg) (n : BitVec 5) (s : State) : Result :=
  single3 (.shift .srl dst src2 n) s

/-- `sra` as an ALU3 piece (R116). -/
def execSra3 (dst src2 : Reg) (n : BitVec 5) (s : State) : Result :=
  single3 (.shift .sra dst src2 n) s

/-- `rol` as an ALU3 piece (R117). -/
def execRol3 (dst src2 : Reg) (n : BitVec 5) (s : State) : Result :=
  single3 (.shift .rol dst src2 n) s

/-- `mov Ap,dst` as an ALU3 piece (R132). -/
def execMovApDst3 (imm : Bool) (dst src2 : Reg) (s : State) : Result :=
  single3 (.fromSpecial .ap imm dst src2) s

/-- `mov Ma,dst` as an ALU3 piece (R133). -/
def execMovMaDst3 (imm : Bool) (dst src2 : Reg) (s : State) : Result :=
  single3 (.fromSpecial .ma imm dst src2) s

/-- `mov Hi,dst` as an ALU3 piece (R134). -/
def execMovHiDst3 (imm : Bool) (dst src2 : Reg) (s : State) : Result :=
  single3 (.fromSpecial .hi imm dst src2) s

/-- `mov Lo,dst` as an ALU3 piece (R135). -/
def execMovLoDst3 (imm : Bool) (dst src2 : Reg) (s : State) : Result :=
  single3 (.fromSpecial .lo imm dst src2) s

/-- `mov PC,dst` as an ALU3 piece (R136). -/
def execMovPcDst3 (imm : Bool) (dst src2 : Reg) (s : State) : Result :=
  single3 (.fromSpecial .pc imm dst src2) s

/-- `sll Lo,dst` as an ALU3 piece (R137). -/
def execSllLo3 (imm : Bool) (dst src2 : Reg) (s : State) : Result :=
  single3 (.shiftLo .sll imm dst src2) s

/-- `srl Lo,dst` as an ALU3 piece (R138). -/
def execSrlLo3 (imm : Bool) (dst src2 : Reg) (s : State) : Result :=
  single3 (.shiftLo .srl imm dst src2) s

/-- `sra Lo,dst` as an ALU3 piece (R139). -/
def execSraLo3 (imm : Bool) (dst src2 : Reg) (s : State) : Result :=
  single3 (.shiftLo .sra imm dst src2) s

/-- `rol Lo,dst` as an ALU3 piece (R140). -/
def execRolLo3 (imm : Bool) (dst src2 : Reg) (s : State) : Result :=
  single3 (.shiftLo .rol imm dst src2) s

/-- `not` as an ALU3 piece (R141). -/
def execNot3 (imm : Bool) (dst src2 : Reg) (s : State) : Result :=
  single3 (.not imm dst src2) s

/-- `mov src,Ap` as an ALU3 piece (R145). -/
def execMovSrcAp3 (imm : Bool) (src2 src1 : Reg) (s : State) : Result :=
  single3 (.toSpecial .ap imm src2 src1) s

/-- `mov src,Ma` as an ALU3 piece (R146). -/
def execMovSrcMa3 (imm : Bool) (src2 src1 : Reg) (s : State) : Result :=
  single3 (.toSpecial .ma imm src2 src1) s

/-- `mov src,Hi` as an ALU3 piece (R147). -/
def execMovSrcHi3 (imm : Bool) (src2 src1 : Reg) (s : State) : Result :=
  single3 (.toSpecial .hi imm src2 src1) s

/-- `mov src,Lo` as an ALU3 piece (R148). -/
def execMovSrcLo3 (imm : Bool) (src2 src1 : Reg) (s : State) : Result :=
  single3 (.toSpecial .lo imm src2 src1) s

/-- `mov src,PC` as an ALU3 piece (R149). -/
def execMovSrcPc3 (imm : Bool) (src2 src1 : Reg) (s : State) : Result :=
  single3 (.toSpecial .pc imm src2 src1) s

/-- `msetup` as an ALU3 piece (R153). -/
def execMsetup3 (imm : Bool) (src2 src1 : Reg) (s : State) : Result :=
  single3 (.toSpecial .msetup imm src2 src1) s

/-- `mstep` as an ALU3 piece (R152). -/
def execMstep3 (imm : Bool) (src2 src1 : Reg) (s : State) : Result :=
  single3 (.toSpecial .mstep imm src2 src1) s

/-- `umend` as an ALU3 piece (R154). -/
def execUmend3 (imm : Bool) (src2 src1 : Reg) (s : State) : Result :=
  single3 (.toSpecial .umend imm src2 src1) s

/-- `dstep` as an ALU3 piece (R155). -/
def execDstep3 (imm : Bool) (src2 src1 : Reg) (s : State) : Result :=
  single3 (.toSpecial .dstep imm src2 src1) s

/-! ### The ALU2 rows -/

/-- `mov` as an ALU2 piece (R105). -/
def execMov2 (imm : Bool) (dst src : Reg) (s : State) : Result :=
  single2 (.mov imm dst src) s

/-- `add` as an ALU2 piece (R106). -/
def execAdd2 (imm : Bool) (dst src : Reg) (s : State) : Result :=
  single2 (.bin .add imm dst src) s

/-- `sub` as an ALU2 piece (R107). -/
def execSub2 (imm : Bool) (dst src : Reg) (s : State) : Result :=
  single2 (.bin .sub imm dst src) s

/-- `subr` as an ALU2 piece (R108). -/
def execSubr2 (imm : Bool) (dst src : Reg) (s : State) : Result :=
  single2 (.bin .subr imm dst src) s

/-- `and` as an ALU2 piece (R109). -/
def execAnd2 (imm : Bool) (dst src : Reg) (s : State) : Result :=
  single2 (.bin .and imm dst src) s

/-- `or` as an ALU2 piece (R110). -/
def execOr2 (imm : Bool) (dst src : Reg) (s : State) : Result :=
  single2 (.bin .or imm dst src) s

/-- `xor` as an ALU2 piece (R111). -/
def execXor2 (imm : Bool) (dst src : Reg) (s : State) : Result :=
  single2 (.bin .xor imm dst src) s

/-- `rlc` as an ALU2 piece (R112). -/
def execRlc2 (imm : Bool) (dst src : Reg) (s : State) : Result :=
  single2 (.bin .rlc imm dst src) s

/-- `xc` as an ALU2 piece (R118). -/
def execXc2 (imm : Bool) (dst src : Reg) (s : State) : Result :=
  single2 (.bin .xc imm dst src) s

/-- `ic` as an ALU2 piece (R119). -/
def execIc2 (imm : Bool) (dst src : Reg) (s : State) : Result :=
  single2 (.ic imm dst src) s

/-- `sll` as an ALU2 piece (R114). -/
def execSll2 (dst : Reg) (n : BitVec 5) (s : State) : Result :=
  single2 (.shift .sll dst n) s

/-- `srl` as an ALU2 piece (R115). -/
def execSrl2 (dst : Reg) (n : BitVec 5) (s : State) : Result :=
  single2 (.shift .srl dst n) s

/-- `sra` as an ALU2 piece (R116). -/
def execSra2 (dst : Reg) (n : BitVec 5) (s : State) : Result :=
  single2 (.shift .sra dst n) s

/-- `rol` as an ALU2 piece (R117). -/
def execRol2 (dst : Reg) (n : BitVec 5) (s : State) : Result :=
  single2 (.shift .rol dst n) s

/-- `mov Ap,dst` as an ALU2 piece (R132). -/
def execMovApDst2 (imm : Bool) (dst : Reg) (s : State) : Result :=
  single2 (.fromSpecial .ap imm dst) s

/-- `mov Ma,dst` as an ALU2 piece (R133). -/
def execMovMaDst2 (imm : Bool) (dst : Reg) (s : State) : Result :=
  single2 (.fromSpecial .ma imm dst) s

/-- `mov Hi,dst` as an ALU2 piece (R134). -/
def execMovHiDst2 (imm : Bool) (dst : Reg) (s : State) : Result :=
  single2 (.fromSpecial .hi imm dst) s

/-- `mov Lo,dst` as an ALU2 piece (R135). -/
def execMovLoDst2 (imm : Bool) (dst : Reg) (s : State) : Result :=
  single2 (.fromSpecial .lo imm dst) s

/-- `mov PC,dst` as an ALU2 piece (R136). -/
def execMovPcDst2 (imm : Bool) (dst : Reg) (s : State) : Result :=
  single2 (.fromSpecial .pc imm dst) s

/-- `sll Lo,dst` as an ALU2 piece (R137). -/
def execSllLo2 (imm : Bool) (dst : Reg) (s : State) : Result :=
  single2 (.shiftLo .sll imm dst) s

/-- `srl Lo,dst` as an ALU2 piece (R138). -/
def execSrlLo2 (imm : Bool) (dst : Reg) (s : State) : Result :=
  single2 (.shiftLo .srl imm dst) s

/-- `sra Lo,dst` as an ALU2 piece (R139). -/
def execSraLo2 (imm : Bool) (dst : Reg) (s : State) : Result :=
  single2 (.shiftLo .sra imm dst) s

/-- `rol Lo,dst` as an ALU2 piece (R140). -/
def execRolLo2 (imm : Bool) (dst : Reg) (s : State) : Result :=
  single2 (.shiftLo .rol imm dst) s

/-- `not` as an ALU2 piece (R141). -/
def execNot2 (imm : Bool) (dst : Reg) (s : State) : Result :=
  single2 (.not imm dst) s

/-- `mov src,Ap` as an ALU2 piece (R145). -/
def execMovSrcAp2 (imm : Bool) (src : Reg) (s : State) : Result :=
  single2 (.toSpecial .ap imm src) s

/-- `mov src,Ma` as an ALU2 piece (R146). -/
def execMovSrcMa2 (imm : Bool) (src : Reg) (s : State) : Result :=
  single2 (.toSpecial .ma imm src) s

/-- `mov src,Hi` as an ALU2 piece (R147). -/
def execMovSrcHi2 (imm : Bool) (src : Reg) (s : State) : Result :=
  single2 (.toSpecial .hi imm src) s

/-- `mov src,Lo` as an ALU2 piece (R148). -/
def execMovSrcLo2 (imm : Bool) (src : Reg) (s : State) : Result :=
  single2 (.toSpecial .lo imm src) s

/-- `mov src,PC` as an ALU2 piece (R149). -/
def execMovSrcPc2 (imm : Bool) (src : Reg) (s : State) : Result :=
  single2 (.toSpecial .pc imm src) s

/-- `msetup` as an ALU2 piece (R153). -/
def execMsetup2 (imm : Bool) (src : Reg) (s : State) : Result :=
  single2 (.toSpecial .msetup imm src) s

/-- `mstep` as an ALU2 piece (R152). -/
def execMstep2 (imm : Bool) (src : Reg) (s : State) : Result :=
  single2 (.toSpecial .mstep imm src) s

/-- `umend` as an ALU2 piece (R154). -/
def execUmend2 (imm : Bool) (src : Reg) (s : State) : Result :=
  single2 (.toSpecial .umend imm src) s

/-- `dstep` as an ALU2 piece (R155). -/
def execDstep2 (imm : Bool) (src : Reg) (s : State) : Result :=
  single2 (.toSpecial .dstep imm src) s

end Sys2Proof.Machine
end

