-- ==== Sys2Proof/Machine/Flags.lean ====
section
/-! DEFINITION. The comparisons. The machine has no condition codes and no status flags (10_state.md
R22): conditional branches, traps and sets compare two operands themselves. -/

namespace Sys2Proof.Machine

/-- `TEST(cond, a, b)`, a the first operand and b the second, exact on the 32-bit operands
(42_control.md R170). -/
def test (c : Cond) (a b : Word) : Bool :=
  match c with
  | .lt => decide (a.toInt < b.toInt)
  | .ge => decide (a.toInt ≥ b.toInt)
  | .le => decide (a.toInt ≤ b.toInt)
  | .gt => decide (a.toInt > b.toInt)
  | .lo => decide (a.toNat < b.toNat)
  | .hs => decide (a.toNat ≥ b.toNat)
  | .ls => decide (a.toNat ≤ b.toNat)
  | .hi => decide (a.toNat > b.toNat)
  | .zand => a &&& b == 0
  | .nzand => a &&& b != 0
  | .zor => a ||| b == 0
  | .nzor => a ||| b != 0
  | .eq => a == b
  | .ne => a != b

/-- The result of SCND: all ones or all zeros (45_setcond_trap.md R240). -/
def setResult (b : Bool) : Word := if b then 0xFFFFFFFF else 0

end Sys2Proof.Machine
end

