-- ==== Sys2Proof/Machine/Control.lean ====
section
/-! DEFINITION. Branches and jumps (42_control.md R173 to R179). In a meaning, `t` is the state as the
stages leave it, one after the other. -/

namespace Sys2Proof.Machine

/-- A conditional branch: Disp in ID, PC(+1) := PC(current) + Disp in OD, and in SX PC(current) :=
PC(+1) if the test is true (R173). -/
def branchOn (c : Cond) (imm : Bool) (src2 src1 : Reg) (offset : BitVec 12) (s : State) : Result :=
  issue
    { word := encode (.bcnd c imm src2 src1 offset)
      regs := src2 :: operandRegs imm src1
      pcInOd := true }
    s fun t =>
      let t := setDisp t (sext offset)
      let t := setPcp1 t (pcInOd t + t.disp)
      .next (if test c (operand t imm src1) (reg t src2) then jumpD1 t t.pcp1 else t)

/-- BCND (R173). -/
def execBcnd (c : Cond) (imm : Bool) (src2 src1 : Reg) (offset : BitVec 12) (s : State) : Result :=
  branchOn c imm src2 src1 offset s

/-- BUCND: PC(current) := PC(current) + Disp in OD (R174). -/
def execBucnd (offset : BitVec 24) (s : State) : Result :=
  issue { word := encode (.bucnd offset), pcInOd := true } s fun t =>
    let t := setDisp t (sext offset)
    .next (jumpD1 t (pcInOd t + t.disp))

/-- JBASE: PC(current) := x[base] + Disp in OD (R175). -/
def execJbase (base : Reg) (offset : BitVec 20) (s : State) : Result :=
  issue { word := encode (.jbase base offset), regs := [base], pcInOd := true } s fun t =>
    let t := setDisp t (sext offset)
    .next (jumpD1 t (reg t base + t.disp))

/-- JDRCT: PC(current) := Disp in OD (R178). -/
def execJdrct (address : BitVec 24) (s : State) : Result :=
  issue { word := encode (.jdrct address), pcInOd := true } s fun t =>
    let t := setDisp t (sext address)
    .next (jumpD1 t t.disp)

/-- The OF stage of an indirect jump: PC(current) := Mp[MAR] (10_state.md R38). -/
def jumpThroughMar (t : State) : Result := andThen (memRead t t.mar) fun v => .next (jumpD2 t v)

/-- JBIND (R176). -/
def execJbind (base : Reg) (offset : BitVec 20) (s : State) : Result :=
  issue { word := encode (.jbind base offset), regs := [base] } s fun t =>
    jumpThroughMar (formAddress t (.based base offset))

/-- JIBALU: MAR in OD, the ALU2 piece in SX, the jump in OF (R177). -/
def execJibalu (base : Reg) (p : Alu2) (offset : BitVec 8) (s : State) : Result :=
  issue
    { word := encode (.jibalu base p offset)
      regs := base :: alu2Regs p
      privileged := alu2Privileged p }
    s fun t => jumpThroughMar (runAlu2 p (formAddress t (.based base offset)))

/-- JIND (R179). -/
def execJind (address : BitVec 24) (s : State) : Result :=
  issue { word := encode (.jind address) } s fun t => jumpThroughMar (formAddress t (.direct address))

end Sys2Proof.Machine
end

