-- ==== Sys2Proof/Machine/System.lean ====
section
/-! DEFINITION. Set Conditionally, Trap Conditionally and the instructions of the Surprise register
(45_setcond_trap.md, 60_exceptions.md, 42_control.md R180, 43_load.md R207, 44_store.md R221, R230),
and the words that are refused. -/

namespace Sys2Proof.Machine

/-- Set Conditionally: in SX x[dst] := -1 if the test of the operand against the old x[dst] is true,
else 0 (R240). -/
def setOn (c : Cond) (imm : Bool) (dst src : Reg) (s : State) : Result :=
  issue { word := encode (.scnd c imm dst src), regs := dst :: operandRegs imm src } s fun t =>
    .next (setReg t dst (setResult (test c (operand t imm src) (reg t dst))))

/-- SCND (R240). -/
def execScnd (c : Cond) (imm : Bool) (dst src : Reg) (s : State) : Result := setOn c imm dst src s

/-- Trap Conditionally: Disp in ID, the code to SUreg[12:1] in OD, and in SX the trap if the test is
true (R242 to R244). Refused directly after LDS (70_reset_and_hazards.md R288). -/
def trapOn (c : Cond) (imm : Bool) (src2 src1 : Reg) (code : BitVec 11) (bit0 : Bool) (s : State) :
    Result :=
  issue
    { word := encode (.trap c imm src2 src1 code bit0)
      regs := src2 :: operandRegs imm src1
      conflict := s.ldsPrev }
    s fun t =>
      let t := setDisp t (sext code)
      let t := setTrapCode t t.disp
      .next (if test c (operand t imm src1) (reg t src2) then takeTrap t else t)

/-- TRAP (R242). -/
def execTrap (c : Cond) (imm : Bool) (src2 src1 : Reg) (code : BitVec 11) (bit0 : Bool)
    (s : State) : Result :=
  trapOn c imm src2 src1 code bit0 s

/-- LDS: SUreg := Mp[MAR] in OF; privileged (43_load.md R207). -/
def execLds (address : BitVec 24) (s : State) : Result :=
  issue { word := encode (.lds address), privileged := true } s fun t =>
    let t := formAddress t (.direct address)
    andThen (memRead t t.mar) fun v => .next (loadSu t v)

/-- STS: Mp[MAR] := SUreg in SX; privileged (44_store.md R230). -/
def execSts (address : BitVec 24) (s : State) : Result :=
  issue { word := encode (.sts address), privileged := true } s fun t =>
    let t := formAddress t (.direct address)
    memWrite t t.mar t.suReg

/-- SAVEPC: Mp[MAR] := PC(-3) in OF, the `pcm` the instruction started with; privileged
(44_store.md R221). -/
def execSavepc (address : BitVec 24) (s : State) : Result :=
  issue { word := encode (.savepc address), privileged := true } s fun t =>
    let t := formAddress t (.direct address)
    memWrite t t.mar (pcMinus3 s)

/-- JINDSS: SUreg enabled in SX, PC(current) := Mp[MAR] in OF; privileged (42_control.md R180). -/
def execJindss (address : BitVec 24) (s : State) : Result :=
  issue { word := encode (.jindss address), privileged := true } s fun t =>
    let t := formAddress t (.direct address)
    jumpThroughMar (enableSu t t.suReg)

/-- A word that is no instruction: rejected (30_encoding.md R85, 60_exceptions.md R253). -/
def execIllegal (word : Word) (_s : State) : Result := .refused (.illegalInstruction word)

/-- A reserved operation: refused, its behaviour being unpredictable (R86, R254). -/
def execReserved (word : Word) (_s : State) : Result := .refused (.reservedOperation word)

end Sys2Proof.Machine
end

