-- ==== Sys2Proof/Machine/Conditions.lean ====
section
/-! DEFINITION. The condition rows: a branch, a trap or a set under its suffix spelling, with the
meaning of the word that carries the condition (42_control.md R170, R172). -/

namespace Sys2Proof.Machine

/-- The branch, trap or set that a condition and its operands make. -/
def conditional (c : Cond) (h : CondHost) (s : State) : Result :=
  match h with
  | .branch imm src2 src1 offset => branchOn c imm src2 src1 offset s
  | .trap imm src2 src1 code bit0 => trapOn c imm src2 src1 code bit0 s
  | .set imm dst src => setOn c imm dst src s

/-- The suffix `lt`: less than (R170). -/
def execLt (h : CondHost) (s : State) : Result := conditional .lt h s

/-- The suffix `ge`: greater than or equal (R170). -/
def execGe (h : CondHost) (s : State) : Result := conditional .ge h s

/-- The suffix `le`: less than or equal (R170). -/
def execLe (h : CondHost) (s : State) : Result := conditional .le h s

/-- The suffix `gt`: greater than (R170). -/
def execGt (h : CondHost) (s : State) : Result := conditional .gt h s

/-- The suffix `lo`: lower than (R170). -/
def execLo (h : CondHost) (s : State) : Result := conditional .lo h s

/-- The suffix `hs`: higher than or same (R170). -/
def execHs (h : CondHost) (s : State) : Result := conditional .hs h s

/-- The suffix `ls`: lower than or same (R170). -/
def execLs (h : CondHost) (s : State) : Result := conditional .ls h s

/-- The suffix `hi`: higher than (R170). -/
def execHi (h : CondHost) (s : State) : Result := conditional .hi h s

/-- The suffix `zand`: and is zero (R170). -/
def execZand (h : CondHost) (s : State) : Result := conditional .zand h s

/-- The suffix `nzand`: and is not zero (R170). -/
def execNzand (h : CondHost) (s : State) : Result := conditional .nzand h s

/-- The suffix `zor`: or is zero (R170). -/
def execZor (h : CondHost) (s : State) : Result := conditional .zor h s

/-- The suffix `nzor`: or is nonzero (R170). -/
def execNzor (h : CondHost) (s : State) : Result := conditional .nzor h s

/-- The suffix `eq`: equal (R170). -/
def execEq (h : CondHost) (s : State) : Result := conditional .eq h s

/-- The suffix `ne`: not equal (R170). -/
def execNe (h : CondHost) (s : State) : Result := conditional .ne h s

end Sys2Proof.Machine
end

