-- ==== Sys2Proof/Machine/Load.lean ====
section
/-! DEFINITION. The loads (43_load.md R200 to R206). -/

namespace Sys2Proof.Machine

/-- The OF stage of a load: x[dst] := Mp[MAR] (R200). -/
def loadThroughMar (dst : Reg) (t : State) : Result :=
  andThen (memRead t t.mar) fun v => .next (loadReg t dst v)

/-- A load without an ALU2 piece (R200). -/
def loadPlain (word : Word) (dst : Reg) (a : Address) (s : State) : Result :=
  issue { word := word, regs := dst :: addressRegs a } s fun t => loadThroughMar dst (formAddress t a)

/-- A load with an ALU2 piece: the address in OD from the old registers, the piece in SX, the loaded
word last, in OF (R200). -/
def loadWithAlu2 (word : Word) (dst : Reg) (a : Address) (p : Alu2) (s : State) : Result :=
  issue
    { word := word
      regs := dst :: addressRegs a ++ alu2Regs p
      privileged := alu2Privileged p }
    s fun t => loadThroughMar dst (runAlu2 p (formAddress t a))

/-- LBI (R201). -/
def execLbi (dst base : Reg) (offset : BitVec 20) (s : State) : Result :=
  loadPlain (encode (.lbi dst base offset)) dst (.based base offset) s

/-- LBALU (R202). -/
def execLbalu (dst base : Reg) (p : Alu2) (offset : BitVec 8) (s : State) : Result :=
  loadWithAlu2 (encode (.lbalu dst base p offset)) dst (.based base offset) p s

/-- LIBALU (R203). -/
def execLibalu (dst base : Reg) (p : Alu2) (index : Reg) (s : State) : Result :=
  loadWithAlu2 (encode (.libalu dst base p index)) dst (.indexed base index) p s

/-- LSBALU (R204). -/
def execLsbalu (dst base : Reg) (p : Alu2) (shift : BitVec 4) (s : State) : Result :=
  loadWithAlu2 (encode (.lsbalu dst base p shift)) dst (.shifted base shift) p s

/-- LDL (R205). -/
def execLdl (dst : Reg) (address : BitVec 24) (s : State) : Result :=
  loadPlain (encode (.ldl dst address)) dst (.direct address) s

/-- LDI: x[dst] := Disp in OD; no memory access and no load delay (R206). -/
def execLdi (dst : Reg) (data : BitVec 24) (s : State) : Result :=
  issue { word := encode (.ldi dst data), regs := [dst] } s fun t =>
    let t := setDisp t (sext data)
    .next (setReg t dst t.disp)

end Sys2Proof.Machine
end

