-- ==== Sys2Proof/Machine/Store.lean ====
section
/-! DEFINITION. The data stores and the store-PC instructions (44_store.md R220 to R229). -/

namespace Sys2Proof.Machine

/-- A data store without an ALU2 piece: Mp[MAR] := x[st] in SX (R220). -/
def storePlain (word : Word) (st : Reg) (a : Address) (s : State) : Result :=
  issue { word := word, regs := st :: addressRegs a } s fun t =>
    let t := formAddress t a
    memWrite t t.mar (reg t st)

/-- A data store with an ALU2 piece: in SX the memory write, then the piece (R220). -/
def storeWithAlu2 (word : Word) (st : Reg) (a : Address) (p : Alu2) (s : State) : Result :=
  issue
    { word := word
      regs := st :: addressRegs a ++ alu2Regs p
      privileged := alu2Privileged p
      conflict := storeConflict st p }
    s fun t =>
      let t := formAddress t a
      andThen (memWrite t t.mar (reg t st)) fun t => .next (runAlu2 p t)

/-- The word a store-PC instruction stores in SX: PC(current) + 1 (R227). -/
def storedPc (t : State) : Word := pcInSx t + 1

/-- SBI (R222). -/
def execSbi (st base : Reg) (offset : BitVec 20) (s : State) : Result :=
  storePlain (encode (.sbi st base offset)) st (.based base offset) s

/-- SBALU (R223). -/
def execSbalu (st base : Reg) (p : Alu2) (offset : BitVec 8) (s : State) : Result :=
  storeWithAlu2 (encode (.sbalu st base p offset)) st (.based base offset) p s

/-- SIBALU (R224). -/
def execSibalu (st base : Reg) (p : Alu2) (index : Reg) (s : State) : Result :=
  storeWithAlu2 (encode (.sibalu st base p index)) st (.indexed base index) p s

/-- SSBALU (R225). -/
def execSsbalu (st base : Reg) (p : Alu2) (shift : BitVec 4) (s : State) : Result :=
  storeWithAlu2 (encode (.ssbalu st base p shift)) st (.shifted base shift) p s

/-- STD (R226). -/
def execStd (st : Reg) (address : BitVec 24) (s : State) : Result :=
  storePlain (encode (.std st address)) st (.direct address) s

/-- SPCB (R227). -/
def execSpcb (base : Reg) (offset : BitVec 20) (s : State) : Result :=
  issue { word := encode (.spcb base offset), regs := [base] } s fun t =>
    let t := formAddress t (.based base offset)
    memWrite t t.mar (storedPc t)

/-- SPCALU: the memory write stands first, so the word stored is not changed by an ALU2 piece that
writes PC(current) (R228). -/
def execSpcalu (base : Reg) (p : Alu2) (offset : BitVec 8) (s : State) : Result :=
  issue
    { word := encode (.spcalu base p offset)
      regs := base :: alu2Regs p
      privileged := alu2Privileged p }
    s fun t =>
      let t := formAddress t (.based base offset)
      andThen (memWrite t t.mar (storedPc t)) fun t => .next (runAlu2 p t)

/-- SPC (R229). -/
def execSpc (address : BitVec 24) (s : State) : Result :=
  issue { word := encode (.spc address) } s fun t =>
    let t := formAddress t (.direct address)
    memWrite t t.mar (storedPc t)

end Sys2Proof.Machine
end

