-- ==== Sys2Proof/Machine/Dispatch.lean ====
section
/-! DEFINITION. The meaning of an instruction: one arm for each constructor of `Instr`. -/

namespace Sys2Proof.Machine

def exec (i : Instr) (s : State) : Host.Outcome State Fault Refusal :=
  match i with
  | .alu23 p3 p2 => Sys2Proof.Machine.execAlu23 p3 p2 s
  | .lbalu dst base p offset => Sys2Proof.Machine.execLbalu dst base p offset s
  | .sbalu st base p offset => Sys2Proof.Machine.execSbalu st base p offset s
  | .ldl dst address => Sys2Proof.Machine.execLdl dst address s
  | .lbi dst base offset => Sys2Proof.Machine.execLbi dst base offset s
  | .std st address => Sys2Proof.Machine.execStd st address s
  | .sbi st base offset => Sys2Proof.Machine.execSbi st base offset s
  | .ldi dst data => Sys2Proof.Machine.execLdi dst data s
  | .libalu dst base p index => Sys2Proof.Machine.execLibalu dst base p index s
  | .sibalu st base p index => Sys2Proof.Machine.execSibalu st base p index s
  | .lsbalu dst base p shift => Sys2Proof.Machine.execLsbalu dst base p shift s
  | .ssbalu st base p shift => Sys2Proof.Machine.execSsbalu st base p shift s
  | .jibalu base p offset => Sys2Proof.Machine.execJibalu base p offset s
  | .spcalu base p offset => Sys2Proof.Machine.execSpcalu base p offset s
  | .jind address => Sys2Proof.Machine.execJind address s
  | .jbind base offset => Sys2Proof.Machine.execJbind base offset s
  | .spc address => Sys2Proof.Machine.execSpc address s
  | .spcb base offset => Sys2Proof.Machine.execSpcb base offset s
  | .jdrct address => Sys2Proof.Machine.execJdrct address s
  | .jbase base offset => Sys2Proof.Machine.execJbase base offset s
  | .bucnd offset => Sys2Proof.Machine.execBucnd offset s
  | .bcnd c imm src2 src1 offset => Sys2Proof.Machine.execBcnd c imm src2 src1 offset s
  | .trap c imm src2 src1 code bit0 => Sys2Proof.Machine.execTrap c imm src2 src1 code bit0 s
  | .scnd c imm dst src => Sys2Proof.Machine.execScnd c imm dst src s
  | .lds address => Sys2Proof.Machine.execLds address s
  | .sts address => Sys2Proof.Machine.execSts address s
  | .savepc address => Sys2Proof.Machine.execSavepc address s
  | .jindss address => Sys2Proof.Machine.execJindss address s
  | .illegal word => Sys2Proof.Machine.execIllegal word s
  | .reserved word => Sys2Proof.Machine.execReserved word s
  | .mov3 imm dst src2 src1 => Sys2Proof.Machine.execMov3 imm dst src2 src1 s
  | .add3 imm dst src2 src1 => Sys2Proof.Machine.execAdd3 imm dst src2 src1 s
  | .sub3 imm dst src2 src1 => Sys2Proof.Machine.execSub3 imm dst src2 src1 s
  | .subr3 imm dst src2 src1 => Sys2Proof.Machine.execSubr3 imm dst src2 src1 s
  | .and3 imm dst src2 src1 => Sys2Proof.Machine.execAnd3 imm dst src2 src1 s
  | .or3 imm dst src2 src1 => Sys2Proof.Machine.execOr3 imm dst src2 src1 s
  | .xor3 imm dst src2 src1 => Sys2Proof.Machine.execXor3 imm dst src2 src1 s
  | .rlc3 imm dst src2 src1 => Sys2Proof.Machine.execRlc3 imm dst src2 src1 s
  | .sll3 dst src2 count => Sys2Proof.Machine.execSll3 dst src2 count s
  | .srl3 dst src2 count => Sys2Proof.Machine.execSrl3 dst src2 count s
  | .sra3 dst src2 count => Sys2Proof.Machine.execSra3 dst src2 count s
  | .rol3 dst src2 count => Sys2Proof.Machine.execRol3 dst src2 count s
  | .xc3 imm dst src2 src1 => Sys2Proof.Machine.execXc3 imm dst src2 src1 s
  | .ic3 imm dst src2 src1 => Sys2Proof.Machine.execIc3 imm dst src2 src1 s
  | .movApDst3 imm dst src2 => Sys2Proof.Machine.execMovApDst3 imm dst src2 s
  | .movMaDst3 imm dst src2 => Sys2Proof.Machine.execMovMaDst3 imm dst src2 s
  | .movHiDst3 imm dst src2 => Sys2Proof.Machine.execMovHiDst3 imm dst src2 s
  | .movLoDst3 imm dst src2 => Sys2Proof.Machine.execMovLoDst3 imm dst src2 s
  | .movPcDst3 imm dst src2 => Sys2Proof.Machine.execMovPcDst3 imm dst src2 s
  | .sllLo3 imm dst src2 => Sys2Proof.Machine.execSllLo3 imm dst src2 s
  | .srlLo3 imm dst src2 => Sys2Proof.Machine.execSrlLo3 imm dst src2 s
  | .sraLo3 imm dst src2 => Sys2Proof.Machine.execSraLo3 imm dst src2 s
  | .rolLo3 imm dst src2 => Sys2Proof.Machine.execRolLo3 imm dst src2 s
  | .not3 imm dst src2 => Sys2Proof.Machine.execNot3 imm dst src2 s
  | .movSrcAp3 imm src2 src1 => Sys2Proof.Machine.execMovSrcAp3 imm src2 src1 s
  | .movSrcMa3 imm src2 src1 => Sys2Proof.Machine.execMovSrcMa3 imm src2 src1 s
  | .movSrcHi3 imm src2 src1 => Sys2Proof.Machine.execMovSrcHi3 imm src2 src1 s
  | .movSrcLo3 imm src2 src1 => Sys2Proof.Machine.execMovSrcLo3 imm src2 src1 s
  | .movSrcPc3 imm src2 src1 => Sys2Proof.Machine.execMovSrcPc3 imm src2 src1 s
  | .msetup3 imm src2 src1 => Sys2Proof.Machine.execMsetup3 imm src2 src1 s
  | .mstep3 imm src2 src1 => Sys2Proof.Machine.execMstep3 imm src2 src1 s
  | .umend3 imm src2 src1 => Sys2Proof.Machine.execUmend3 imm src2 src1 s
  | .dstep3 imm src2 src1 => Sys2Proof.Machine.execDstep3 imm src2 src1 s
  | .mov2 imm dst src => Sys2Proof.Machine.execMov2 imm dst src s
  | .add2 imm dst src => Sys2Proof.Machine.execAdd2 imm dst src s
  | .sub2 imm dst src => Sys2Proof.Machine.execSub2 imm dst src s
  | .subr2 imm dst src => Sys2Proof.Machine.execSubr2 imm dst src s
  | .and2 imm dst src => Sys2Proof.Machine.execAnd2 imm dst src s
  | .or2 imm dst src => Sys2Proof.Machine.execOr2 imm dst src s
  | .xor2 imm dst src => Sys2Proof.Machine.execXor2 imm dst src s
  | .rlc2 imm dst src => Sys2Proof.Machine.execRlc2 imm dst src s
  | .sll2 dst count => Sys2Proof.Machine.execSll2 dst count s
  | .srl2 dst count => Sys2Proof.Machine.execSrl2 dst count s
  | .sra2 dst count => Sys2Proof.Machine.execSra2 dst count s
  | .rol2 dst count => Sys2Proof.Machine.execRol2 dst count s
  | .xc2 imm dst src => Sys2Proof.Machine.execXc2 imm dst src s
  | .ic2 imm dst src => Sys2Proof.Machine.execIc2 imm dst src s
  | .movApDst2 imm dst => Sys2Proof.Machine.execMovApDst2 imm dst s
  | .movMaDst2 imm dst => Sys2Proof.Machine.execMovMaDst2 imm dst s
  | .movHiDst2 imm dst => Sys2Proof.Machine.execMovHiDst2 imm dst s
  | .movLoDst2 imm dst => Sys2Proof.Machine.execMovLoDst2 imm dst s
  | .movPcDst2 imm dst => Sys2Proof.Machine.execMovPcDst2 imm dst s
  | .sllLo2 imm dst => Sys2Proof.Machine.execSllLo2 imm dst s
  | .srlLo2 imm dst => Sys2Proof.Machine.execSrlLo2 imm dst s
  | .sraLo2 imm dst => Sys2Proof.Machine.execSraLo2 imm dst s
  | .rolLo2 imm dst => Sys2Proof.Machine.execRolLo2 imm dst s
  | .not2 imm dst => Sys2Proof.Machine.execNot2 imm dst s
  | .movSrcAp2 imm src => Sys2Proof.Machine.execMovSrcAp2 imm src s
  | .movSrcMa2 imm src => Sys2Proof.Machine.execMovSrcMa2 imm src s
  | .movSrcHi2 imm src => Sys2Proof.Machine.execMovSrcHi2 imm src s
  | .movSrcLo2 imm src => Sys2Proof.Machine.execMovSrcLo2 imm src s
  | .movSrcPc2 imm src => Sys2Proof.Machine.execMovSrcPc2 imm src s
  | .msetup2 imm src => Sys2Proof.Machine.execMsetup2 imm src s
  | .mstep2 imm src => Sys2Proof.Machine.execMstep2 imm src s
  | .umend2 imm src => Sys2Proof.Machine.execUmend2 imm src s
  | .dstep2 imm src => Sys2Proof.Machine.execDstep2 imm src s
  | .lt h => Sys2Proof.Machine.execLt h s
  | .ge h => Sys2Proof.Machine.execGe h s
  | .le h => Sys2Proof.Machine.execLe h s
  | .gt h => Sys2Proof.Machine.execGt h s
  | .lo h => Sys2Proof.Machine.execLo h s
  | .hs h => Sys2Proof.Machine.execHs h s
  | .ls h => Sys2Proof.Machine.execLs h s
  | .hi h => Sys2Proof.Machine.execHi h s
  | .zand h => Sys2Proof.Machine.execZand h s
  | .nzand h => Sys2Proof.Machine.execNzand h s
  | .zor h => Sys2Proof.Machine.execZor h s
  | .nzor h => Sys2Proof.Machine.execNzor h s
  | .eq h => Sys2Proof.Machine.execEq h s
  | .ne h => Sys2Proof.Machine.execNe h s

end Sys2Proof.Machine
end

