-- ==== Sys2Proof/Machine/Step.lean ====
section
/-! DEFINITION. One step: fetch, decode, execute (00_scope.md R8). -/

namespace Sys2Proof.Machine

/-- One whole instruction: the word at `pc0` is fetched, decoded and executed, and the sequencing
state advances (R8; the advance is part of `exec`, through `issue`). -/
def step (s : State) : Host.Outcome State Fault Refusal :=
  andThen (fetch s) fun w => exec (decode w) s

/-- The state with an instruction word where `step` fetches next: the word at `pc0`, with `pc0` in
`MemDomain` and in `CodeDomain`. It stands for the load of a program from outside (log entry 4). -/
def State.withFetchWord (s : State) (nbits w : Nat) : State :=
  let here : Span := ⟨s.pc0, s.pc0⟩
  { s with
    mem := s.mem.setWord s.pc0 (BitVec.ofNat 32 (w % 2 ^ nbits))
    memDomain := if memAddr s s.pc0 then s.memDomain else here :: s.memDomain
    codeDomain := if inSpans s.codeDomain s.pc0 then s.codeDomain else here :: s.codeDomain }

end Sys2Proof.Machine
end

