-- ==== Sys2Proof/Safety.lean ====
section
/-! DEFINITION. The terms claims are stated in: what an instruction leaves unchanged, where control
goes next, which instructions the spec's checks single out, when an instruction is ready to complete,
and the invariant of the machine. -/

namespace Sys2Proof.Machine

/-! ### Frames -/

/-- The state an instruction may change, beside the sequencing state: its destination registers, the
address of the one word it stores, and each special or scratch register. -/
structure Changes where
  regs : List Reg := []
  stored : Option Word := none
  hi : Bool := false
  lo : Bool := false
  db : Bool := false
  ap : Bool := false
  ma : Bool := false
  suReg : Bool := false
  mar : Bool := false
  disp : Bool := false
  pcp1 : Bool := false
  draws : Bool := false
deriving DecidableEq, Repr

/-- The frame: everything but what is listed is unchanged, every byte of memory outside the stored
word among it (all of memory, if nothing is stored). -/
structure OnlyChanges (c : Changes) (s t : State) : Prop where
  regs : ∀ r, r ∉ c.regs → reg t r = reg s r
  bytes : ∀ p, (∀ a, c.stored = some a → p / 4 ≠ a.toNat) → t.mem.byte p = s.mem.byte p
  hi : c.hi = false → t.hi = s.hi
  lo : c.lo = false → t.lo = s.lo
  db : c.db = false → t.db = s.db
  ap : c.ap = false → t.ap = s.ap
  ma : c.ma = false → t.ma = s.ma
  suReg : c.suReg = false → t.suReg = s.suReg
  mar : c.mar = false → t.mar = s.mar
  disp : c.disp = false → t.disp = s.disp
  pcp1 : c.pcp1 = false → t.pcp1 = s.pcp1
  draws : c.draws = false → t.draws = s.draws
  memDomain : t.memDomain = s.memDomain
  codeDomain : t.codeDomain = s.codeDomain
  supWords : t.supWords = s.supWords

/-! ### Where control goes -/

/-- The instruction after this one is at the old `pc1`, the two after it at `a` and `b`; `pcm` is this
instruction's address, and the Surprise settings move up by one (10_state.md R26, R37). -/
structure Goes (a b : Word) (s t : State) : Prop where
  pc0 : t.pc0 = s.pc1
  pc1 : t.pc1 = a
  pc2 : t.pc2 = b
  pcm : t.pcm = s.pc0
  suCur : t.suCur = s.suNxt
  suNxt : t.suNxt = s.suNxt

/-- No transfer of control: the sequencing state advances (R37). -/
def Continues (s t : State) : Prop := Goes s.pc2 (s.pc2 + 1) s t

/-- A transfer to `v` after one more instruction (R38, `JumpD1`). -/
def JumpsAfterOne (v : Word) (s t : State) : Prop := Goes v (v + 1) s t

/-- A transfer to `v` after two more instructions (R38, `JumpD2`). -/
def JumpsAfterTwo (v : Word) (s t : State) : Prop := Goes s.pc2 v s t

/-- The sequencing state and the settings are the same (for a memory instruction beside what its ALU2
piece does). -/
structure SameSequencing (s t : State) : Prop where
  pc0 : t.pc0 = s.pc0
  pc1 : t.pc1 = s.pc1
  pc2 : t.pc2 = s.pc2
  pcm : t.pcm = s.pcm
  suCur : t.suCur = s.suCur
  suNxt : t.suNxt = s.suNxt

/-- The bookkeeping of the instruction just executed (70_reset_and_hazards.md R292). -/
structure Notes (loaded : Option Reg) (indirect lds : Bool) (t : State) : Prop where
  ldPrev : t.ldPrev = loaded
  jd2Prev : t.jd2Prev = indirect
  ldsPrev : t.ldsPrev = lds

/-- The end of a run, for a program that ends in a self-loop at `e` (70_reset_and_hazards.md R296). -/
def Halted (e : Word) (s : State) : Bool := s.pc0 == e

/-! ### What an instruction uses -/

/-- The registers a branch, trap or set reads or writes, all in SX (10_state.md R21). -/
def hostRegs : CondHost → List Reg
  | .branch imm src2 src1 _ => if imm then [src2] else [src2, src1]
  | .trap imm src2 src1 _ _ => if imm then [src2] else [src2, src1]
  | .set imm dst src => if imm then [dst] else [dst, src]

/-- The one data access of an instruction (20_memory.md R58). -/
inductive Access where
  | none
  | load (a : Word)
  | store (a : Word)
deriving DecidableEq, Repr

end Sys2Proof.Machine

namespace Sys2Proof

open Machine

/-- Whether a term is an instruction at all, neither illegal nor reserved. -/
def Instr.legal : Instr → Bool
  | .illegal _ => false
  | .reserved _ => false
  | _ => true

/-- The general registers an instruction reads or writes in any stage (10_state.md R21). An ALU piece
that stands alone in its word has the idle `mov R0,R0` beside it, which uses R0 (30_encoding.md
R89). -/
def Instr.uses (i : Instr) : List Reg :=
  match i with
  | .lbalu dst base p _ => [dst, base] ++ alu2Regs p
  | .sbalu st base p _ => [st, base] ++ alu2Regs p
  | .ldl dst _ => [dst]
  | .lbi dst base _ => [dst, base]
  | .std st _ => [st]
  | .sbi st base _ => [st, base]
  | .ldi dst _ => [dst]
  | .libalu dst base p index => [dst, base, index] ++ alu2Regs p
  | .sibalu st base p index => [st, base, index] ++ alu2Regs p
  | .lsbalu dst base p _ => [dst, base] ++ alu2Regs p
  | .ssbalu st base p _ => [st, base] ++ alu2Regs p
  | .jibalu base p _ => [base] ++ alu2Regs p
  | .spcalu base p _ => [base] ++ alu2Regs p
  | .jbind base _ => [base]
  | .spcb base _ => [base]
  | .jbase base _ => [base]
  | _ =>
    match i.packing, i.condition with
    | some (p3, p2), _ => alu3Regs p3 ++ alu2Regs p2
    | _, some (_, h) => hostRegs h
    | none, none => []

/-- Whether an instruction is a privileged operation or holds one (60_exceptions.md R255). -/
def Instr.privileged (i : Instr) : Bool :=
  match i with
  | .lds _ => true
  | .sts _ => true
  | .savepc _ => true
  | .jindss _ => true
  | .lbalu _ _ p _ => alu2Privileged p
  | .sbalu _ _ p _ => alu2Privileged p
  | .libalu _ _ p _ => alu2Privileged p
  | .sibalu _ _ p _ => alu2Privileged p
  | .lsbalu _ _ p _ => alu2Privileged p
  | .ssbalu _ _ p _ => alu2Privileged p
  | .jibalu _ p _ => alu2Privileged p
  | .spcalu _ p _ => alu2Privileged p
  | _ =>
    match i.packing with
    | some (p3, p2) => alu3Privileged p3 || alu2Privileged p2
    | none => false

/-- Whether an instruction reads or writes PC(current) in OD (70_reset_and_hazards.md R287). -/
def Instr.accessesPcInOd (i : Instr) : Bool :=
  match i with
  | .bucnd _ => true
  | .jbase _ _ => true
  | .jdrct _ => true
  | _ =>
    match i.packing, i.condition with
    | some (p3, _), _ => alu3Pc p3
    | _, some (_, .branch _ _ _ _) => true
    | _, _ => false

/-- Whether an instruction is a TRAP, under either spelling. -/
def Instr.isTrap (i : Instr) : Bool :=
  match i.condition with
  | some (_, .trap _ _ _ _ _) => true
  | _ => false

/-- Whether an instruction is an indirect jump (10_state.md R38). -/
def Instr.isIndirectJump : Instr → Bool
  | .jbind _ _ => true
  | .jibalu _ _ _ => true
  | .jind _ => true
  | .jindss _ => true
  | _ => false

/-- Whether an instruction is LDS. -/
def Instr.isLds : Instr → Bool
  | .lds _ => true
  | _ => false

/-- The register a load from memory writes in OF (43_load.md R200; not LDI, R206, nor LDS, R207). -/
def Instr.loads : Instr → Option Reg
  | .lbi dst _ _ => some dst
  | .lbalu dst _ _ _ => some dst
  | .libalu dst _ _ _ => some dst
  | .lsbalu dst _ _ _ => some dst
  | .ldl dst _ => some dst
  | _ => none

/-- A register conflict: a store whose data register its own ALU2 piece writes
(70_reset_and_hazards.md R286), or a TRAP directly after LDS (R288). -/
def Instr.conflicts (i : Instr) (s : State) : Bool :=
  match i with
  | .sbalu st _ p _ => alu2Dst p == some st
  | .sibalu st _ p _ => alu2Dst p == some st
  | .ssbalu st _ p _ => alu2Dst p == some st
  | _ => i.isTrap && s.ldsPrev

/-- The data access an instruction makes, with its word address from the registers it starts with
(20_memory.md R58; 43_load.md R201 to R205; 44_store.md R222 to R226). -/
def Instr.access (i : Instr) (s : State) : Access :=
  match i with
  | .lbi _ base offset => .load (reg s base + sext offset)
  | .lbalu _ base _ offset => .load (reg s base + sext offset)
  | .libalu _ base _ index => .load (reg s base + reg s index)
  | .lsbalu _ base _ shift => .load ((reg s base).sshiftRight shift.toNat)
  | .ldl _ address => .load (sext address)
  | .lds address => .load (sext address)
  | .jbind base offset => .load (reg s base + sext offset)
  | .jibalu base _ offset => .load (reg s base + sext offset)
  | .jind address => .load (sext address)
  | .jindss address => .load (sext address)
  | .sbi _ base offset => .store (reg s base + sext offset)
  | .sbalu _ base _ offset => .store (reg s base + sext offset)
  | .sibalu _ base _ index => .store (reg s base + reg s index)
  | .ssbalu _ base _ shift => .store ((reg s base).sshiftRight shift.toNat)
  | .std _ address => .store (sext address)
  | .spcb base offset => .store (reg s base + sext offset)
  | .spcalu base _ offset => .store (reg s base + sext offset)
  | .spc address => .store (sext address)
  | .sts address => .store (sext address)
  | .savepc address => .store (sext address)
  | _ => .none

end Sys2Proof

namespace Sys2Proof.Machine

/-! ### The codes in an instruction's word (30_encoding.md R72, R82, R84) -/

/-- The word's field alu.3. -/
def HasAlu3 (i : Instr) (op : BitVec 4) : Prop := (encode i).extractLsb' 20 4 = op

/-- The word's field alu.2. -/
def HasAlu2 (i : Instr) (op : BitVec 4) : Prop := (encode i).extractLsb' 8 4 = op

/-- An ALU3 piece with an implicit source of this code. -/
def HasAlu3Source (i : Instr) (code : BitVec 4) : Prop :=
  HasAlu3 i 14 ∧ (encode i).extractLsb' 0 4 = code

/-- An ALU2 piece with an implicit source of this code. -/
def HasAlu2Source (i : Instr) (code : BitVec 4) : Prop :=
  HasAlu2 i 14 ∧ (encode i).extractLsb' 12 4 = code

/-- An ALU3 piece with an implicit destination of this code. -/
def HasAlu3Dest (i : Instr) (code : BitVec 4) : Prop :=
  HasAlu3 i 15 ∧ (encode i).extractLsb' 24 4 = code

/-- An ALU2 piece with an implicit destination of this code. -/
def HasAlu2Dest (i : Instr) (code : BitVec 4) : Prop :=
  HasAlu2 i 15 ∧ (encode i).extractLsb' 16 4 = code

/-- An ALU3 shift whose count is the flag i' above the field src1 (40_alu.md R113). -/
def HasAlu3Count (i : Instr) (n : BitVec 5) : Prop :=
  BitVec.ofBool ((encode i).getLsbD 29) ++ (encode i).extractLsb' 0 4 = n

/-- An ALU2 shift in an ALU23 word, whose count is the flag i above the field src (40_alu.md R113). -/
def HasAlu2Count (i : Instr) (n : BitVec 5) : Prop :=
  BitVec.ofBool ((encode i).getLsbD 28) ++ (encode i).extractLsb' 12 4 = n

/-! ### When an instruction completes -/

/-- No register of a list is the destination of the load executed just before
(70_reset_and_hazards.md R285). -/
abbrev NotLoading (rs : List Reg) (s : State) : Prop := ∀ r ∈ rs, s.ldPrev ≠ some r

/-- A load may read this address, a store may write it (20_memory.md R51). -/
def Access.allowed (s : State) : Access → Prop
  | .none => True
  | .load a => memAddr s a = true
  | .store a => memAddr s a = true ∧ codeAddr s a = false

/-- A privileged operation in user state (60_exceptions.md R265). -/
abbrev Unprivileged (i : Instr) (s : State) : Prop :=
  i.privileged = true ∧ supervisor s = false

/-- A use of PC(current) in OD directly after an indirect jump (70_reset_and_hazards.md R287). -/
abbrev PcConflict (i : Instr) (s : State) : Prop := i.accessesPcInOd = true ∧ s.jd2Prev = true

/-- What the spec asks of the state for an instruction to complete: none of the refusals and faults of
60_exceptions.md R252 applies. -/
structure Ready (i : Instr) (s : State) : Prop where
  legal : i.legal = true
  privilege : ¬ Unprivileged i s
  operands : NotLoading i.uses s
  pc : ¬ PcConflict i s
  conflict : i.conflicts s = false
  access : (i.access s).allowed s

/-! ### What an instruction completes with -/

/-- A first operand: the zero-extended 4-bit literal, or the register (30_encoding.md R81). -/
def source (s : State) (imm : Bool) (src : Reg) : Word := if imm then src.setWidth 32 else reg s src

/-- The register a first operand reads, if any. -/
def sourceRegs (imm : Bool) (src : Reg) : List Reg := if imm then [] else [src]

end Sys2Proof.Machine

namespace Sys2Proof

open Machine

/-- Whether an instruction, under either spelling, is a TRAP whose test is true in this state
(45_setcond_trap.md R242, R243). -/
def Instr.takesTrap (i : Instr) (s : State) : Bool :=
  match i.condition with
  | some (c, .trap imm src2 src1 _ _) => test c (source s imm src1) (reg s src2)
  | _ => false

end Sys2Proof

namespace Sys2Proof.Machine

/-- The instruction changed nothing but what is listed, and control goes on behind it. -/
def Plain (c : Changes) (s t : State) : Prop :=
  OnlyChanges c s t ∧ Continues s t ∧ Notes none false false t

/-- THE INSTRUCTION COMPLETES: `exec` answers a next state, in which `dst` holds `v` and nothing else
has changed but the sequencing state, which goes on behind it. -/
def Yields (i : Instr) (dst : Reg) (v : Word) (s : State) : Prop :=
  ∃ t, exec i s = .next t ∧ reg t dst = v ∧ Plain { regs := [dst] } s t

/-- What an ALU2 piece alone makes of a state: the piece after the sequencing of its instruction. -/
def alone (p : Alu2) (s : State) : State := runAlu2 p (advance s)

/-- What an ALU2 piece may change: its destination register, or the special registers of its
implicit-destination code (40_alu.md R102; 41_alu_special.md R143). -/
def pieceChanges (p : Alu2) : Changes :=
  match p with
  | .toSpecial .ap _ _ => { ap := true }
  | .toSpecial .ma _ _ => { ma := true }
  | .toSpecial .hi _ _ => { hi := true }
  | .toSpecial .lo _ _ => { lo := true }
  | .toSpecial .pc _ _ => {}
  | .toSpecial .msetup _ _ => { hi := true, lo := true, db := true }
  | .toSpecial .mstep _ _ => { hi := true, lo := true, db := true }
  | .toSpecial .umend _ _ => { hi := true }
  | .toSpecial .dstep _ _ => { hi := true, lo := true }
  | _ => { regs := (alu2Dst p).toList }

/-- What an ALU3 piece may change, likewise. -/
def alu3Changes (p : Alu3) : Changes :=
  match p with
  | .toSpecial .ap _ _ _ => { ap := true }
  | .toSpecial .ma _ _ _ => { ma := true }
  | .toSpecial .hi _ _ _ => { hi := true }
  | .toSpecial .lo _ _ _ => { lo := true }
  | .toSpecial .pc _ _ _ => {}
  | .toSpecial .msetup _ _ _ => { hi := true, lo := true, db := true }
  | .toSpecial .mstep _ _ _ => { hi := true, lo := true, db := true }
  | .toSpecial .umend _ _ _ => { hi := true }
  | .toSpecial .dstep _ _ _ => { hi := true, lo := true }
  | _ => { regs := (alu3Dst p).toList }

/-- What the two pieces of an ALU23 word may change together (R100). -/
def bothChanges (p3 : Alu3) (p2 : Alu2) : Changes :=
  let c := alu3Changes p3
  let d := pieceChanges p2
  { regs := c.regs ++ d.regs, hi := c.hi || d.hi, lo := c.lo || d.lo, db := c.db || d.db,
    ap := c.ap || d.ap, ma := c.ma || d.ma }

/-- A memory instruction did with its ALU2 piece what the piece does alone: the registers outside a
list, Hi, Lo, Db, Ap and Ma are as the piece leaves them. -/
structure DoesPiece (p : Alu2) (others : List Reg) (s t : State) : Prop where
  regs : ∀ r, r ∉ others → reg t r = reg (alone p s) r
  hi : t.hi = (alone p s).hi
  lo : t.lo = (alone p s).lo
  db : t.db = (alone p s).db
  ap : t.ap = (alone p s).ap
  ma : t.ma = (alone p s).ma

/-- What a multiply step leaves in Hi, Lo and Db, with multiplicand `a` and Db starting as `db`: a 34-bit
sum over the two registers, shifted right by two (41_alu_special.md R152). -/
def BoothStepped (a : Word) (db : Bool) (s t : State) : Prop :=
  let k : Int :=
    -2 * ((s.lo.getLsbD 1).toNat : Int) + ((s.lo.getLsbD 0).toNat : Int) + (db.toNat : Int)
  let sum : BitVec 34 := BitVec.ofInt 34 (s.hi.toInt + k * a.toInt)
  t.hi = sum.extractLsb' 2 32 ∧ t.lo = sum.extractLsb' 0 2 ++ s.lo.extractLsb' 2 30 ∧
  t.db = s.lo.getLsbD 1

/-! ### Traps -/

/-- The 12 bits of a TRAP's code as SUreg holds them (45_setcond_trap.md R244). -/
abbrev HoldsTrapCode (code : BitVec 11) (su : Word) : Prop :=
  su.extractLsb' 1 11 = code ∧ su.getLsbD 12 = code.getLsbD 10

/-! ### The invariant -/

/-- At most one note of the hazard bookkeeping is set (70_reset_and_hazards.md R292): one instruction
is not a load, an indirect jump and an LDS at once. -/
abbrev OneNote (s : State) : Prop :=
  (s.ldPrev ≠ none → s.jd2Prev = false ∧ s.ldsPrev = false) ∧
  (s.jd2Prev = true → s.ldsPrev = false)

/-- The invariant of the machine: memory in its canonical form, and at most one note. -/
abbrev Inv (s : State) : Prop := s.mem.wf = true ∧ OneNote s

/-- The machine holds a program that no step may change (20_memory.md R64): its domains are these, its
memory is canonical, and every word of `CodeDomain` is the program's. -/
def ProgramIs (memDomain codeDomain : List Span) (program : Word → Word) (s : State) : Prop :=
  s.mem.wf = true ∧ s.memDomain = memDomain ∧ s.codeDomain = codeDomain ∧
  ∀ a, codeAddr s a = true → s.mem.word a = program a

end Sys2Proof.Machine
end

