-- ==== Sys2Proof/Certificates/Slice0/Obligations.lean ====
section
/-! DEFINITION. The statements for the provers. Each docstring names the rules of spec/ a statement
formalises, or the log entry of the model's choice it is about. Names of constructors in a
docstring are the constructors of `Instr` the statement is about. -/

open Sys2Proof Sys2Proof.Machine

/-! ### Words and instructions (30_encoding.md) -/

/-- Decoding an encoded well-formed instruction gives it back, with every operand at every value; the
condition rows, the suffix spelling of a branch, trap or set, give that word's instruction (R71 to
R84, R172). That a piece beside the idle one is read as its own row is the model's choice of terms
(log entry 10). -/
def Obligations.DecodeOfEncode : Prop :=
  (∀ i : Instr, i.wf = true → (∀ c h, i ≠ Instr.ofCond c h) → decode (encode i) = i) ∧
  ∀ (c : Cond) (h : CondHost), decode (encode (Instr.ofCond c h)) = h.instr c

/-- Every word is read as a well-formed instruction that encodes to that very word: no bit is dropped
(R72 to R80, R87). -/
def Obligations.EncodeOfDecode : Prop :=
  ∀ w : Word, encode (decode w) = w ∧ (decode w).wf = true

/-- The decoder names exactly the illegal words illegal and exactly the reserved ones that are not
also illegal reserved (R85, R86). Two clauses are the spec's own choices, log entry 19: that an SCND
word with a non-zero bit in 11:0 is reserved (R86, R241: decision D26), and that a word with both an
illegal and a reserved code is named illegal (R262: decision D36). -/
def Obligations.IllegalAndReservedWordsExact : Prop :=
  ∀ w : Word,
    (decode w = .illegal w ↔ illegalWord w = true) ∧
    (decode w = .reserved w ↔ reservedWord w = true ∧ illegalWord w = false) ∧
    (∀ v, decode w = .illegal v ∨ decode w = .reserved v → v = w)

/-- The opcode map: a word is read as an instruction of a row only if its bits under the row's mask
are the row's match, and a word of a row that uses no illegal or reserved code is read as an
instruction of that row (R83). -/
def Obligations.OpcodeMapRows : Prop :=
  (∀ (w : Word) (r : MaskRow), (decode w).row = some r → r ∈ opcodeRows ∧ w &&& r.mask = r.bits) ∧
  ∀ (w : Word) (r : MaskRow), r ∈ opcodeRows → w &&& r.mask = r.bits →
    illegalWord w = false → reservedWord w = false → (decode w).row = some r

/-- A few words written out from the layouts R72 to R80 and read field by field. -/
def Obligations.WrittenOutWordsDecode : Prop :=
  decode 0x0C112100 = .alu23 (.bin .add false 12 0 0) (.bin .add false 1 2) ∧
  decode 0x53221104 = .lbalu 3 2 (.bin .add true 2 1) 4 ∧
  decode 0xD3200042 = .lsbalu 3 2 (.mov false 0 0) 2 ∧
  decode 0xE7FF12FF = .spcalu 15 (.bin .sub true 15 1) 0xFF ∧
  decode 0xF1C11009 = .bcnd .eq true 1 1 9 ∧
  decode 0xF3C4000A = .trap .eq true 4 0 5 false ∧
  decode 0xF4C21000 = .scnd .eq false 2 1 ∧
  decode 0xB3200008 = .sbi 3 2 8 ∧
  decode 0xFE000042 = .savepc 0x42

/-! ### One step (00_scope.md R8) -/

/-- A step fetches the word at `pc0`, decodes it and is the meaning of that instruction, which moves
the sequencing state itself: nothing is added around it (R8). That a fetch outside `CodeDomain` faults
is the spec's own choice (R51, R64: decisions D22 and D27; log entry 23). -/
def Obligations.StepRunsDecoded : Prop :=
  ∀ s : State,
    (∀ i, codeAddr s s.pc0 = true → decode (s.mem.word s.pc0) = i → step s = exec i s) ∧
    (codeAddr s s.pc0 = false → step s = .fault (.badAddress s.pc0))

/-- A word placed for the fetch is the one the next step runs (the model's load of a program, log
entry 4). -/
def Obligations.PlacedWordRunsNext : Prop :=
  ∀ (s : State) (w : Word), s.mem.wf = true →
    step (s.withFetchWord 32 w.toNat) = exec (decode w) (s.withFetchWord 32 w.toNat)

/-! ### Memory (20_memory.md) -/

/-- A word read after a word write is the word written at its own address, and the old word at every
other address (R50, R61); byte k of a word of memory is its bits 8k+7 to 8k (R55, decision D4). -/
def Obligations.MemoryReadsWhatWasWritten : Prop :=
  (∀ (m : Memory) (a b v : Word), m.wf = true →
    (m.setWord a v).word b = if b = a then v else m.word b) ∧
  ∀ (m : Memory) (a : Word) (k : Nat), k < 4 →
    (m.word a).extractLsb' (8 * k) 8 = m.byte (4 * a.toNat + k)

/-- The canonical form of memory is canonical: two memories in it that read the same everywhere are
the same data (the model's own form, log entry 3). -/
def Obligations.CanonicalMemoryIsUnique : Prop :=
  ∀ m n : Memory, m.wf = true → n.wf = true → (∀ p, m.byte p = n.byte p) → m = n

/-! ### The ALU operations (40_alu.md) -/

/-- `add`, `sub`, `subr` in both pieces, changing the destination register only (R106 to R108). That
they wrap modulo 2^32 silently is the spec's own choice (decision D7, log entry 22). Constructors:
add3 sub3 subr3 add2 sub2 subr2. A piece alone in its word also uses R0, which the idle piece names
(R89). -/
def Obligations.ArithmeticResults : Prop :=
  (∀ (imm : Bool) (dst src2 src1 : Reg) (s : State),
    NotLoading ([0, dst, src2] ++ sourceRegs imm src1) s →
    let a := source s imm src1
    let b := reg s src2
    Yields (.add3 imm dst src2 src1) dst (a + b) s ∧
    Yields (.sub3 imm dst src2 src1) dst (b - a) s ∧
    Yields (.subr3 imm dst src2 src1) dst (a - b) s) ∧
  ∀ (imm : Bool) (dst src : Reg) (s : State),
    NotLoading ([0, dst] ++ sourceRegs imm src) s →
    let a := source s imm src
    let b := reg s dst
    Yields (.add2 imm dst src) dst (a + b) s ∧
    Yields (.sub2 imm dst src) dst (b - a) s ∧
    Yields (.subr2 imm dst src) dst (a - b) s

/-- `and`, `or`, `xor`, codes 0100 to 0110, act bit by bit (R109 to R111). Constructors: and3 or3 xor3
and2 or2 xor2. -/
def Obligations.LogicResults : Prop :=
  (∀ (imm : Bool) (dst src2 src1 : Reg) (s : State),
    NotLoading ([0, dst, src2] ++ sourceRegs imm src1) s →
    let a := source s imm src1
    let b := reg s src2
    Yields (.and3 imm dst src2 src1) dst (a &&& b) s ∧ HasAlu3 (.and3 imm dst src2 src1) 4 ∧
    Yields (.or3 imm dst src2 src1) dst (a ||| b) s ∧ HasAlu3 (.or3 imm dst src2 src1) 5 ∧
    Yields (.xor3 imm dst src2 src1) dst (a ^^^ b) s ∧ HasAlu3 (.xor3 imm dst src2 src1) 6) ∧
  ∀ (imm : Bool) (dst src : Reg) (s : State),
    NotLoading ([0, dst] ++ sourceRegs imm src) s →
    let a := source s imm src
    let b := reg s dst
    Yields (.and2 imm dst src) dst (a &&& b) s ∧ HasAlu2 (.and2 imm dst src) 4 ∧
    Yields (.or2 imm dst src) dst (a ||| b) s ∧ HasAlu2 (.or2 imm dst src) 5 ∧
    Yields (.xor2 imm dst src) dst (a ^^^ b) s ∧ HasAlu2 (.xor2 imm dst src) 6

/-- `rlc`, code 0111: the high word of `source2 || source1` shifted left by the five low bits of Lo (R112).
Constructors: rlc3 rlc2. -/
def Obligations.CombinedShiftResults : Prop :=
  (∀ (imm : Bool) (dst src2 src1 : Reg) (s : State),
    NotLoading ([0, dst, src2] ++ sourceRegs imm src1) s →
    Yields (.rlc3 imm dst src2 src1) dst
      (((reg s src2 ++ source s imm src1 : BitVec 64) <<< (s.lo.toNat % 32)).extractLsb' 32 32) s ∧
    HasAlu3 (.rlc3 imm dst src2 src1) 7) ∧
  ∀ (imm : Bool) (dst src : Reg) (s : State),
    NotLoading ([0, dst] ++ sourceRegs imm src) s →
    Yields (.rlc2 imm dst src) dst
      (((reg s dst ++ source s imm src : BitVec 64) <<< (s.lo.toNat % 32)).extractLsb' 32 32) s ∧
    HasAlu2 (.rlc2 imm dst src) 7

/-- The immediate shifts, codes 1000 to 1011, by the 5-bit count that the immediate flag and the first
source field hold: zeros enter at the right (sll) or at the left (srl), copies of the sign bit (sra),
or the bits shifted out (rol) (R114 to R117, with the count of R113). Constructors: sll3 srl3 sra3 rol3 sll2 srl2 sra2 rol2. -/
def Obligations.ImmediateShiftResults : Prop :=
  (∀ (dst src2 : Reg) (n : BitVec 5),
    (∀ s : State, NotLoading [0, dst, src2] s →
      let b := reg s src2
      Yields (.sll3 dst src2 n) dst (b <<< n.toNat) s ∧
      Yields (.srl3 dst src2 n) dst (b >>> n.toNat) s ∧
      Yields (.sra3 dst src2 n) dst (b.sshiftRight n.toNat) s ∧
      Yields (.rol3 dst src2 n) dst (b.rotateLeft n.toNat) s) ∧
    HasAlu3 (.sll3 dst src2 n) 8 ∧ HasAlu3Count (.sll3 dst src2 n) n ∧
    HasAlu3 (.srl3 dst src2 n) 9 ∧ HasAlu3Count (.srl3 dst src2 n) n ∧
    HasAlu3 (.sra3 dst src2 n) 10 ∧ HasAlu3Count (.sra3 dst src2 n) n ∧
    HasAlu3 (.rol3 dst src2 n) 11 ∧ HasAlu3Count (.rol3 dst src2 n) n) ∧
  ∀ (dst : Reg) (n : BitVec 5),
    (∀ s : State, NotLoading [0, dst] s →
      let b := reg s dst
      Yields (.sll2 dst n) dst (b <<< n.toNat) s ∧
      Yields (.srl2 dst n) dst (b >>> n.toNat) s ∧
      Yields (.sra2 dst n) dst (b.sshiftRight n.toNat) s ∧
      Yields (.rol2 dst n) dst (b.rotateLeft n.toNat) s) ∧
    HasAlu2 (.sll2 dst n) 8 ∧ HasAlu2Count (.sll2 dst n) n ∧
    HasAlu2 (.srl2 dst n) 9 ∧ HasAlu2Count (.srl2 dst n) n ∧
    HasAlu2 (.sra2 dst n) 10 ∧ HasAlu2Count (.sra2 dst n) n ∧
    HasAlu2 (.rol2 dst n) 11 ∧ HasAlu2Count (.rol2 dst n) n

/-- `xc` and `ic`: byte k of a word, k from the two low bits of the first operand or of Lo (R118,
R119; the byte numbering is decision D4). Constructors: xc3 ic3 xc2 ic2. -/
def Obligations.CharacterResults : Prop :=
  (∀ (imm : Bool) (dst src2 src1 : Reg) (s : State), NotLoading ([0, dst] ++ sourceRegs imm src1) s →
    let a := source s imm src1
    let k := s.lo.toNat % 4
    (NotLoading [src2] s →
      Yields (.xc3 imm dst src2 src1) dst ((reg s src2 >>> (8 * (a.toNat % 4))) &&& 0xFF) s) ∧
    Yields (.ic3 imm dst src2 src1) dst
      ((reg s dst &&& ~~~((0xFF : Word) <<< (8 * k))) ||| ((a &&& 0xFF) <<< (8 * k))) s) ∧
  ∀ (imm : Bool) (dst src : Reg) (s : State), NotLoading ([0, dst] ++ sourceRegs imm src) s →
    let a := source s imm src
    let k := s.lo.toNat % 4
    Yields (.xc2 imm dst src) dst ((reg s dst >>> (8 * (a.toNat % 4))) &&& 0xFF) s ∧
    Yields (.ic2 imm dst src) dst
      ((reg s dst &&& ~~~((0xFF : Word) <<< (8 * k))) ||| ((a &&& 0xFF) <<< (8 * k))) s

/-- `mov`, code 0000: the first operand, which in an immediate ALU3 piece is the 8-bit signed byte of the two
source fields; the second source register is not read (R105). Constructors: mov3 mov2. -/
def Obligations.MoveResults : Prop :=
  (∀ (imm : Bool) (dst src2 src1 : Reg) (s : State), NotLoading ([0, dst] ++ sourceRegs imm src1) s →
    Yields (.mov3 imm dst src2 src1) dst
      (if imm then (src2 ++ src1 : BitVec 8).signExtend 32 else reg s src1) s ∧
    HasAlu3 (.mov3 imm dst src2 src1) 0) ∧
  ∀ (imm : Bool) (dst src : Reg) (s : State), NotLoading ([0, dst] ++ sourceRegs imm src) s →
    Yields (.mov2 imm dst src) dst (source s imm src) s ∧ HasAlu2 (.mov2 imm dst src) 0

/-! ### The special registers (41_alu_special.md) -/

/-- `mov Hi,dst` and `mov Lo,dst`, implicit sources 0100 and 0101, in any state; as an ALU2 piece behind
a multiply or divide step in the same word, `mov Hi,dst` reads the Hi which that step produced (R134,
R135). Constructors: movHiDst3 movLoDst3 movHiDst2 movLoDst2. -/
def Obligations.MovesFromHiAndLo : Prop :=
  (∀ (imm : Bool) (dst src2 : Reg) (s : State), NotLoading [0, dst] s →
    Yields (.movHiDst3 imm dst src2) dst s.hi s ∧ HasAlu3Source (.movHiDst3 imm dst src2) 4 ∧
    Yields (.movLoDst3 imm dst src2) dst s.lo s ∧ HasAlu3Source (.movLoDst3 imm dst src2) 5) ∧
  (∀ (imm : Bool) (dst : Reg) (s : State), NotLoading [0, dst] s →
    Yields (.movHiDst2 imm dst) dst s.hi s ∧ HasAlu2Source (.movHiDst2 imm dst) 4 ∧
    Yields (.movLoDst2 imm dst) dst s.lo s ∧ HasAlu2Source (.movLoDst2 imm dst) 5) ∧
  ∀ (sel : DstSel) (imm imm' : Bool) (src2 src1 dst : Reg) (s t : State),
    sel = .msetup ∨ sel = .mstep ∨ sel = .umend ∨ sel = .dstep →
    exec (.alu23 (.toSpecial sel imm src2 src1) (.fromSpecial .hi imm' dst)) s = .next t →
    t.hi = (writeSpecial s sel (source s imm src1)).hi ∧ reg t dst = t.hi

/-- In supervisor state the moves from and to Ap and Ma (R132, R133, R145, R146; decisions D16, D28).
Constructors: movApDst3 movMaDst3 movApDst2 movMaDst2 movSrcAp3 movSrcMa3 movSrcAp2 movSrcMa2. -/
def Obligations.ApAndMaMoves : Prop :=
  ∀ s : State, supervisor s = true →
    (∀ (imm : Bool) (dst src2 : Reg), NotLoading [0, dst] s →
      Yields (.movApDst3 imm dst src2) dst s.ap s ∧ Yields (.movMaDst3 imm dst src2) dst s.ma s ∧
      Yields (.movApDst2 imm dst) dst s.ap s ∧ Yields (.movMaDst2 imm dst) dst s.ma s) ∧
    ∀ (imm : Bool) (src2 src : Reg), NotLoading ([0] ++ sourceRegs imm src) s →
      (∃ t, exec (.movSrcAp3 imm src2 src) s = .next t ∧ t.ap = source s imm src ∧
        Plain { ap := true } s t) ∧
      (∃ t, exec (.movSrcMa3 imm src2 src) s = .next t ∧ t.ma = source s imm src ∧
        Plain { ma := true } s t) ∧
      (∃ t, exec (.movSrcAp2 imm src) s = .next t ∧ t.ap = source s imm src ∧
        Plain { ap := true } s t) ∧
      (∃ t, exec (.movSrcMa2 imm src) s = .next t ∧ t.ma = source s imm src ∧
        Plain { ma := true } s t)

/-- The variable shifts shift the second operand by the five low bits of Lo, and `not` complements it
(R137 to R141, decisions D23, D24). Constructors: sllLo3 srlLo3 sraLo3 rolLo3 not3 sllLo2 srlLo2
sraLo2 rolLo2 not2. -/
def Obligations.VariableShiftAndNotResults : Prop :=
  (∀ (imm : Bool) (dst src2 : Reg) (s : State), NotLoading [0, dst, src2] s →
    let b := reg s src2
    let n := s.lo.toNat % 32
    Yields (.sllLo3 imm dst src2) dst (b <<< n) s ∧
    Yields (.srlLo3 imm dst src2) dst (b >>> n) s ∧
    Yields (.sraLo3 imm dst src2) dst (b.sshiftRight n) s ∧
    Yields (.rolLo3 imm dst src2) dst (b.rotateLeft n) s ∧
    Yields (.not3 imm dst src2) dst (~~~b) s) ∧
  ∀ (imm : Bool) (dst : Reg) (s : State), NotLoading [0, dst] s →
    let b := reg s dst
    let n := s.lo.toNat % 32
    Yields (.sllLo2 imm dst) dst (b <<< n) s ∧
    Yields (.srlLo2 imm dst) dst (b >>> n) s ∧
    Yields (.sraLo2 imm dst) dst (b.sshiftRight n) s ∧
    Yields (.rolLo2 imm dst) dst (b.rotateLeft n) s ∧
    Yields (.not2 imm dst) dst (~~~b) s

/-- `mov src,Hi` and `mov src,Lo`, implicit destinations 0100 and 0101, in any state; the other two of
Hi, Lo and Db are unchanged (R147, R148).
Constructors: movSrcHi3 movSrcLo3 movSrcHi2 movSrcLo2. -/
def Obligations.MovesToHiAndLo : Prop :=
  ∀ (imm : Bool) (src2 src : Reg) (s : State), NotLoading ([0] ++ sourceRegs imm src) s →
    (∃ t, exec (.movSrcHi3 imm src2 src) s = .next t ∧ t.hi = source s imm src ∧
      Plain { hi := true } s t) ∧ HasAlu3Dest (.movSrcHi3 imm src2 src) 4 ∧
    (∃ t, exec (.movSrcLo3 imm src2 src) s = .next t ∧ t.lo = source s imm src ∧
      Plain { lo := true } s t) ∧ HasAlu3Dest (.movSrcLo3 imm src2 src) 5 ∧
    (∃ t, exec (.movSrcHi2 imm src) s = .next t ∧ t.hi = source s imm src ∧
      Plain { hi := true } s t) ∧ HasAlu2Dest (.movSrcHi2 imm src) 4 ∧
    (∃ t, exec (.movSrcLo2 imm src) s = .next t ∧ t.lo = source s imm src ∧
      Plain { lo := true } s t) ∧ HasAlu2Dest (.movSrcLo2 imm src) 5

/-- `mov PC,dst` reads PC(current) of its own stage, `pc1` in OD and `pc2` in SX (R136, decision D10);
`mov src,PC` from either piece jumps after one more instruction and changes no register (R149, decision
D11). Constructors: movPcDst3 movPcDst2 movSrcPc3 movSrcPc2. -/
def Obligations.PcMoves : Prop :=
  (∀ (imm : Bool) (dst src2 : Reg) (s : State), NotLoading [0, dst] s →
    (s.jd2Prev = false → Yields (.movPcDst3 imm dst src2) dst s.pc1 s) ∧
    Yields (.movPcDst2 imm dst) dst s.pc2 s) ∧
  ∀ (imm : Bool) (src2 src : Reg) (s : State), NotLoading ([0] ++ sourceRegs imm src) s →
    (s.jd2Prev = false → ∃ t, exec (.movSrcPc3 imm src2 src) s = .next t ∧
      JumpsAfterOne (source s imm src) s t ∧ OnlyChanges {} s t ∧ Notes none false false t) ∧
    (∃ t, exec (.movSrcPc2 imm src) s = .next t ∧
      JumpsAfterOne (source s imm src) s t ∧ OnlyChanges {} s t ∧ Notes none false false t)

/-! ### The multiply and divide steps -/

/-- `mstep` and `msetup`, implicit destinations 1001 and 1000; `msetup` first clears Db: one two-bit
Booth step on a 34-bit sum (R152, R153).
Constructors: mstep3 mstep2 msetup3 msetup2. -/
def Obligations.MultiplySteps : Prop :=
  ∀ (imm : Bool) (src2 src : Reg) (s : State), NotLoading ([0] ++ sourceRegs imm src) s →
    let a := source s imm src
    (∃ t, exec (.mstep3 imm src2 src) s = .next t ∧ BoothStepped a s.db s t ∧
      Plain { hi := true, lo := true, db := true } s t) ∧ HasAlu3Dest (.mstep3 imm src2 src) 9 ∧
    (∃ t, exec (.mstep2 imm src) s = .next t ∧ BoothStepped a s.db s t ∧
      Plain { hi := true, lo := true, db := true } s t) ∧ HasAlu2Dest (.mstep2 imm src) 9 ∧
    (∃ t, exec (.msetup3 imm src2 src) s = .next t ∧ BoothStepped a false s t ∧
      Plain { hi := true, lo := true, db := true } s t) ∧ HasAlu3Dest (.msetup3 imm src2 src) 8 ∧
    (∃ t, exec (.msetup2 imm src) s = .next t ∧ BoothStepped a false s t ∧
      Plain { hi := true, lo := true, db := true } s t) ∧ HasAlu2Dest (.msetup2 imm src) 8

/-- `umend`, implicit destination 1010, adds the multiplicand to Hi exactly if Db is set (R154).
`dstep`, implicit destination 1011: Hi and Lo shift left as
one, the divisor is added or subtracted by the sign of the old Hi, and the complement of the new sign
enters Lo; Db is unchanged (R155). Constructors: umend3 umend2 dstep3 dstep2. -/
def Obligations.UnsignedEndAndDivideSteps : Prop :=
  ∀ (imm : Bool) (src2 src : Reg) (s : State), NotLoading ([0] ++ sourceRegs imm src) s →
    let a := source s imm src
    let sum := if s.db then s.hi + a else s.hi
    let shifted : BitVec 64 := (s.hi ++ s.lo : BitVec 64) <<< 1
    let high := shifted.extractLsb' 32 32
    let hi := if s.hi.msb then high + a else high - a
    let lo := shifted.extractLsb' 0 32 ||| if hi.msb then 0 else 1
    (∃ t, exec (.umend3 imm src2 src) s = .next t ∧ t.hi = sum ∧ Plain { hi := true } s t) ∧
    HasAlu3Dest (.umend3 imm src2 src) 10 ∧
    (∃ t, exec (.umend2 imm src) s = .next t ∧ t.hi = sum ∧ Plain { hi := true } s t) ∧
    HasAlu2Dest (.umend2 imm src) 10 ∧
    (∃ t, exec (.dstep3 imm src2 src) s = .next t ∧ t.hi = hi ∧ t.lo = lo ∧
      Plain { hi := true, lo := true } s t) ∧ HasAlu3Dest (.dstep3 imm src2 src) 11 ∧
    (∃ t, exec (.dstep2 imm src) s = .next t ∧ t.hi = hi ∧ t.lo = lo ∧
      Plain { hi := true, lo := true } s t) ∧ HasAlu2Dest (.dstep2 imm src) 11

/-- The Booth table of the multiply step is `k = -2*Lo<1> + Lo<0> + Db`, and that of `umend` adds the
multiplicand once exactly if Db is set, whatever Lo holds (R151). -/
def Obligations.BoothTables : Prop :=
  (∀ lo1 lo0 db : Bool,
    boothMultiple lo1 lo0 db = -2 * (lo1.toNat : Int) + (lo0.toNat : Int) + (db.toNat : Int)) ∧
  ∀ (a : Word) (r : MulDiv),
    mulUnsignedEnd a r = { r with hi := if r.db then r.hi + a else r.hi }

/-- Sixteen steps, the first of them `msetup`, leave the signed 64-bit product in Hi and Lo, plus the
value Hi held at the start, and the multiplier's sign in Db (R156). -/
def Obligations.SixteenStepsMultiplySigned : Prop :=
  ∀ (m c h : Word) (db : Bool),
    let r := (mulStep c)^[15] (mulSetup c ⟨h, m, db⟩)
    (r.hi ++ r.lo : BitVec 64) = BitVec.ofInt 64 (m.toInt * c.toInt + h.toInt) ∧ r.db = m.msb

/-- After the sixteen steps `umend` leaves the low word of the unsigned product in Lo always, and its
high word in Hi if the multiplicand is below 2^31, or that less the multiplier if it is not (R157). -/
def Obligations.StepsAndEndMultiplyUnsigned : Prop :=
  ∀ (m c : Word) (db : Bool),
    let r := mulUnsignedEnd c ((mulStep c)^[15] (mulSetup c ⟨0, m, db⟩))
    let high := BitVec.ofNat 32 (m.toNat * c.toNat / 2 ^ 32)
    r.lo = m * c ∧ r.hi = if c.toNat < 2 ^ 31 then high else high - m

/-- Thirty-two divide steps of a non-negative dividend by a positive divisor leave the quotient in Lo,
and in Hi the remainder, or the remainder less the divisor if Hi is negative; with divisor 0 they
leave all ones in Lo and the dividend in Hi (R158). -/
def Obligations.ThirtyTwoStepsDivide : Prop :=
  ∀ (n d : Word) (db : Bool), n.toNat < 2 ^ 31 →
    let r := (divStep d)^[32] ⟨0, n, db⟩
    (0 < d.toNat ∧ d.toNat < 2 ^ 31 →
      r.lo.toNat = n.toNat / d.toNat ∧
      r.hi = if r.hi.msb then BitVec.ofNat 32 (n.toNat % d.toNat) - d
        else BitVec.ofNat 32 (n.toNat % d.toNat)) ∧
    (d = 0 → r.lo = 0xFFFFFFFF ∧ r.hi = n)

/-! ### ALU23 (40_alu.md R100 to R103) -/

/-- An ALU23 word runs its ALU3 piece and then its ALU2 piece, which sees what the first left, and
changes nothing beside the sequencing state but the destinations of the two pieces.
Two `mstep` pieces make two steps (R100, R103). Constructor: alu23. -/
def Obligations.PackedPiecesRunInOrder : Prop :=
  ∀ (p3 : Alu3) (p2 : Alu2) (s : State),
    (alu3Privileged p3 || alu2Privileged p2 → supervisor s = true) →
    NotLoading (alu3Regs p3 ++ alu2Regs p2) s → (alu3Pc p3 = true → s.jd2Prev = false) →
    (∃ t, exec (.alu23 p3 p2) s = .next t ∧ t = runAlu2 p2 (runAlu3 p3 (advance s)) ∧
      OnlyChanges (bothChanges p3 p2) s t ∧
      Notes none false false t) ∧
    ∀ (imm imm' : Bool) (src2 src1 src : Reg) (t : State),
      p3 = .toSpecial .mstep imm src2 src1 → p2 = .toSpecial .mstep imm' src →
      exec (.alu23 p3 p2) s = .next t →
      mulDiv t = mulStep (source s imm' src) (mulStep (source s imm src1) (mulDiv s)) ∧
      Plain { hi := true, lo := true, db := true } s t

/-- The all-zero word is ALU23 with two idle pieces, and a word of two `mov Rk,Rk` changes nothing but
the sequencing state; so a piece alone in its word is that word's ALU23 instruction with the idle piece,
and leaves the piece's own effect (R89; the rows' own constructors are log entry 10). Constructor:
alu23. -/
def Obligations.IdlePieces : Prop :=
  decode 0 = .alu23 Alu3.idle Alu2.idle ∧
  (∀ (k src2 j : Reg) (s : State), NotLoading [k, j] s →
    ∃ t, exec (.alu23 (.mov false k src2 k) (.mov false j j)) s = .next t ∧ Plain {} s t) ∧
  (∀ (p : Alu3) (s : State), exec (Instr.ofAlu3 p) s = exec (.alu23 p Alu2.idle) s ∧
    ∀ t, exec (Instr.ofAlu3 p) s = .next t → t = runAlu3 p (advance s)) ∧
  ∀ (p : Alu2) (s : State), exec (Instr.ofAlu2 p) s = exec (.alu23 Alu3.idle p) s ∧
    ∀ t, exec (Instr.ofAlu2 p) s = .next t → t = alone p s

/-! ### Comparisons (42_control.md R170) -/

/-- The fourteen conditions under their codes 0000 to 1101, first operand on the left, exact on the
32-bit operands; conditions whose codes differ in bit 0 are complements; a literal first operand is the same number signed and unsigned;
the codes 1110 and 1111 are reserved (R170). -/
def Obligations.ConditionTable : Prop :=
  (∀ a b : Word,
    (test .lt a b = true ↔ a.toInt < b.toInt) ∧ (test .ge a b = true ↔ b.toInt ≤ a.toInt) ∧
    (test .le a b = true ↔ a.toInt ≤ b.toInt) ∧ (test .gt a b = true ↔ b.toInt < a.toInt) ∧
    (test .lo a b = true ↔ a.toNat < b.toNat) ∧ (test .hs a b = true ↔ b.toNat ≤ a.toNat) ∧
    (test .ls a b = true ↔ a.toNat ≤ b.toNat) ∧ (test .hi a b = true ↔ b.toNat < a.toNat) ∧
    (test .zand a b = true ↔ a &&& b = 0) ∧ (test .nzand a b = true ↔ a &&& b ≠ 0) ∧
    (test .zor a b = true ↔ a ||| b = 0) ∧ (test .nzor a b = true ↔ a ||| b ≠ 0) ∧
    (test .eq a b = true ↔ a = b) ∧ (test .ne a b = true ↔ a ≠ b)) ∧
  (∀ (c d : Cond) (a b : Word), encodeCond c ^^^ encodeCond d = 1 → test c a b = !test d a b) ∧
  (∀ (s : State) (v : Reg), (source s true v).toInt = v.toNat ∧ (source s true v).toNat = v.toNat) ∧
  [Cond.lt, .ge, .le, .gt, .lo, .hs, .ls, .hi, .zand, .nzand, .zor, .nzor, .eq, .ne].map encodeCond =
    [0, 1, 2, 3, 4, 5, 6, 7, 8, 9, 10, 11, 12, 13] ∧
  ∀ code : BitVec 4, decodeCond code = .reserved ↔ 14 ≤ code.toNat

/-! ### Branches and jumps (42_control.md) -/

/-- BCND: the destination `pc1 + Disp` is formed whether or not the branch is taken; a taken branch
jumps to it after one more instruction, one not taken goes on (R173). Constructors: bcnd, and with
branch operands lt ge le gt lo hs ls hi zand nzand zor nzor eq ne. -/
def Obligations.ConditionalBranches : Prop :=
  ∀ (c : Cond) (imm : Bool) (src2 src1 : Reg) (offset : BitVec 12) (s : State) (i : Instr),
    i = .bcnd c imm src2 src1 offset ∨ i = Instr.ofCond c (.branch imm src2 src1 offset) →
    NotLoading ([src2] ++ sourceRegs imm src1) s → s.jd2Prev = false →
    ∃ t, exec i s = .next t ∧
      (if test c (source s imm src1) (reg s src2) = true
        then JumpsAfterOne (s.pc1 + offset.signExtend 32) s t else Continues s t) ∧
      t.disp = offset.signExtend 32 ∧ t.pcp1 = s.pc1 + offset.signExtend 32 ∧
      OnlyChanges { disp := true, pcp1 := true } s t ∧ Notes none false false t

/-- BUCND, JBASE and JDRCT jump after one more instruction (R174, R175, R178). Constructors: bucnd
jbase jdrct. -/
def Obligations.DirectJumps : Prop :=
  ∀ s : State, s.jd2Prev = false →
    (∀ offset : BitVec 24, ∃ t, exec (.bucnd offset) s = .next t ∧
      JumpsAfterOne (s.pc1 + offset.signExtend 32) s t ∧ t.disp = offset.signExtend 32 ∧
      OnlyChanges { disp := true } s t ∧ Notes none false false t) ∧
    (∀ (base : Reg) (offset : BitVec 20), NotLoading [base] s →
      ∃ t, exec (.jbase base offset) s = .next t ∧
        JumpsAfterOne (reg s base + offset.signExtend 32) s t ∧ t.disp = offset.signExtend 32 ∧
        OnlyChanges { disp := true } s t ∧ Notes none false false t) ∧
    ∀ address : BitVec 24, ∃ t, exec (.jdrct address) s = .next t ∧
      JumpsAfterOne (address.signExtend 32) s t ∧ t.disp = address.signExtend 32 ∧
      OnlyChanges { disp := true } s t ∧ Notes none false false t

/-- JIND and JBIND jump to the word in memory after two more instructions (R176, R179; that these are
two is decision D8, log entry 14).
Constructors: jind jbind. -/
def Obligations.IndirectJumps : Prop :=
  (∀ (address : BitVec 24) (s : State), memAddr s (address.signExtend 32) = true →
    ∃ t, exec (.jind address) s = .next t ∧
      JumpsAfterTwo (s.mem.word (address.signExtend 32)) s t ∧
      t.mar = address.signExtend 32 ∧ t.disp = address.signExtend 32 ∧
      OnlyChanges { mar := true, disp := true } s t ∧ Notes none true false t) ∧
  ∀ (base : Reg) (offset : BitVec 20) (s : State),
    let a := reg s base + offset.signExtend 32
    NotLoading [base] s → memAddr s a = true →
    ∃ t, exec (.jbind base offset) s = .next t ∧ JumpsAfterTwo (s.mem.word a) s t ∧
      t.mar = a ∧ t.disp = offset.signExtend 32 ∧
      OnlyChanges { mar := true, disp := true } s t ∧ Notes none true false t

/-- JIBALU: the address from the old base, then the ALU2 piece, then the jump to the word in memory
after two more instructions; a piece that writes PC(current) has placed the second of them (R177; the two
instructions are decision D8, log entry 14).
Constructor: jibalu. -/
def Obligations.IndirectJumpWithPiece : Prop :=
  ∀ (base : Reg) (p : Alu2) (offset : BitVec 8) (s : State),
    let a := reg s base + offset.signExtend 32
    (alu2Privileged p = true → supervisor s = true) → NotLoading ([base] ++ alu2Regs p) s →
    memAddr s a = true →
    ∃ t, exec (.jibalu base p offset) s = .next t ∧
      Goes (alone p s).pc1 (s.mem.word a) s t ∧ DoesPiece p [] s t ∧
      t.mar = a ∧ t.disp = offset.signExtend 32 ∧
      OnlyChanges { pieceChanges p with mar := true, disp := true } s t ∧ Notes none true false t

/-- JINDSS in supervisor state jumps like JIND; the instruction after it runs under the setting that
was already next, and the ones after that under the word SUreg holds now (R26, R180; privileged by
decision D31). Constructor: jindss. -/
def Obligations.JumpAndSetup : Prop :=
  ∀ (address : BitVec 24) (s : State),
    let a : Word := address.signExtend 32
    supervisor s = true → memAddr s a = true →
    ∃ t, exec (.jindss address) s = .next t ∧
      t.pc0 = s.pc1 ∧ t.pc1 = s.pc2 ∧ t.pc2 = s.mem.word a ∧ t.pcm = s.pc0 ∧
      t.suCur = s.suNxt ∧ t.suNxt = .enabled s.suReg ∧ t.mar = a ∧ t.disp = a ∧
      OnlyChanges { mar := true, disp := true } s t ∧ Notes none true false t

/-! ### Loads (43_load.md) -/

/-- LBI and LDL load one whole word, and note the destination for the instruction after (R200, R201,
R205, R292). Constructors: lbi ldl. -/
def Obligations.PlainLoads : Prop :=
  (∀ (dst base : Reg) (offset : BitVec 20) (s : State),
    let a := reg s base + offset.signExtend 32
    NotLoading [dst, base] s → memAddr s a = true →
    ∃ t, exec (.lbi dst base offset) s = .next t ∧ reg t dst = s.mem.word a ∧
      t.mar = a ∧ t.disp = offset.signExtend 32 ∧
      OnlyChanges { regs := [dst], mar := true, disp := true } s t ∧ Continues s t ∧
      Notes (some dst) false false t) ∧
  ∀ (dst : Reg) (address : BitVec 24) (s : State),
    let a : Word := address.signExtend 32
    NotLoading [dst] s → memAddr s a = true →
    ∃ t, exec (.ldl dst address) s = .next t ∧ reg t dst = s.mem.word a ∧ t.mar = a ∧ t.disp = a ∧
      OnlyChanges { regs := [dst], mar := true, disp := true } s t ∧ Continues s t ∧
      Notes (some dst) false false t

/-- LBALU, LIBALU and LSBALU: the address from the old registers, then the ALU2 piece, then the loaded
word, which stays where piece and load write one register (R200, R202 to R204). The shifted address is
the base divided by a power of two, rounding toward minus infinity (R204). Constructors: lbalu libalu
lsbalu. -/
def Obligations.LoadsWithPiece : Prop :=
  ∀ (dst base : Reg) (p : Alu2) (s : State),
    (alu2Privileged p = true → supervisor s = true) →
    NotLoading ([dst, base] ++ alu2Regs p) s →
    (∀ offset : BitVec 8,
      let a := reg s base + offset.signExtend 32
      memAddr s a = true →
      ∃ t, exec (.lbalu dst base p offset) s = .next t ∧ reg t dst = s.mem.word a ∧
        t.mar = a ∧ t.disp = offset.signExtend 32 ∧ DoesPiece p [dst] s t ∧
        OnlyChanges { pieceChanges p with regs := dst :: (alu2Dst p).toList
                                          mar := true, disp := true } s t ∧
        SameSequencing (alone p s) t ∧ Notes (some dst) false false t) ∧
    (∀ index : Reg,
      let a := reg s base + reg s index
      NotLoading [index] s → memAddr s a = true →
      ∃ t, exec (.libalu dst base p index) s = .next t ∧ reg t dst = s.mem.word a ∧
        t.mar = a ∧ DoesPiece p [dst] s t ∧
        OnlyChanges { pieceChanges p with regs := dst :: (alu2Dst p).toList, mar := true } s t ∧
        SameSequencing (alone p s) t ∧ Notes (some dst) false false t) ∧
    ∀ (shift : BitVec 4) (a : Word),
      a.toInt = (reg s base).toInt / 2 ^ shift.toNat → memAddr s a = true →
      ∃ t, exec (.lsbalu dst base p shift) s = .next t ∧ reg t dst = s.mem.word a ∧
        t.mar = a ∧ DoesPiece p [dst] s t ∧
        OnlyChanges { pieceChanges p with regs := dst :: (alu2Dst p).toList, mar := true } s t ∧
        SameSequencing (alone p s) t ∧ Notes (some dst) false false t

/-- LDI puts the sign-extended 24-bit field in the register, with no memory access and no load delay;
its word is `1100 dst.ld immediate24` (R206). Constructor: ldi. -/
def Obligations.LoadImmediate : Prop :=
  ∀ (dst : Reg) (data : BitVec 24) (s : State),
    encode (.ldi dst data) = (0xC#4 ++ dst ++ data : BitVec 32) ∧
    (NotLoading [dst] s →
      ∃ t, exec (.ldi dst data) s = .next t ∧ reg t dst = data.signExtend 32 ∧
        t.disp = data.signExtend 32 ∧ Plain { regs := [dst], disp := true } s t)

/-! ### Stores (44_store.md) -/

/-- SBI and STD store a register's whole word (R220, R222, R226). Constructors: sbi std. -/
def Obligations.PlainStores : Prop :=
  (∀ (st base : Reg) (offset : BitVec 20) (s : State),
    let a := reg s base + offset.signExtend 32
    s.mem.wf = true → NotLoading [st, base] s → memAddr s a = true → codeAddr s a = false →
    ∃ t, exec (.sbi st base offset) s = .next t ∧ t.mem.word a = reg s st ∧
      t.mar = a ∧ t.disp = offset.signExtend 32 ∧
      Plain { stored := some a, mar := true, disp := true } s t) ∧
  ∀ (st : Reg) (address : BitVec 24) (s : State),
    let a : Word := address.signExtend 32
    s.mem.wf = true → NotLoading [st] s → memAddr s a = true → codeAddr s a = false →
    ∃ t, exec (.std st address) s = .next t ∧ t.mem.word a = reg s st ∧ t.mar = a ∧ t.disp = a ∧
      Plain { stored := some a, mar := true, disp := true } s t

/-- SBALU, SIBALU and SSBALU store the data register's old word at the address from the old registers,
and do their ALU2 piece, whose destination is another register (R220, R223 to R225). Constructors:
sbalu sibalu ssbalu. -/
def Obligations.StoresWithPiece : Prop :=
  ∀ (st base : Reg) (p : Alu2) (s : State),
    s.mem.wf = true → (alu2Privileged p = true → supervisor s = true) →
    NotLoading ([st, base] ++ alu2Regs p) s → alu2Dst p ≠ some st →
    (∀ offset : BitVec 8,
      let a := reg s base + offset.signExtend 32
      memAddr s a = true → codeAddr s a = false →
      ∃ t, exec (.sbalu st base p offset) s = .next t ∧ t.mem.word a = reg s st ∧
        t.mar = a ∧ t.disp = offset.signExtend 32 ∧ DoesPiece p [] s t ∧
        OnlyChanges { pieceChanges p with stored := some a, mar := true, disp := true } s t ∧
        SameSequencing (alone p s) t ∧ Notes none false false t) ∧
    (∀ index : Reg,
      let a := reg s base + reg s index
      NotLoading [index] s → memAddr s a = true → codeAddr s a = false →
      ∃ t, exec (.sibalu st base p index) s = .next t ∧ t.mem.word a = reg s st ∧
        t.mar = a ∧ DoesPiece p [] s t ∧
        OnlyChanges { pieceChanges p with stored := some a, mar := true } s t ∧
        SameSequencing (alone p s) t ∧ Notes none false false t) ∧
    ∀ (shift : BitVec 4) (a : Word), a.toInt = (reg s base).toInt / 2 ^ shift.toNat →
      memAddr s a = true → codeAddr s a = false →
      ∃ t, exec (.ssbalu st base p shift) s = .next t ∧ t.mem.word a = reg s st ∧
        t.mar = a ∧ DoesPiece p [] s t ∧
        OnlyChanges { pieceChanges p with stored := some a, mar := true } s t ∧
        SameSequencing (alone p s) t ∧ Notes none false false t

/-- SPC, SPCB and SPCALU store PC(current) + 1 of their SX stage, `pc2 + 1`, which an ALU2 piece that
writes PC(current) does not change (R227 to R229). Constructors: spc spcb spcalu. -/
def Obligations.StorePcInstructions : Prop :=
  ∀ s : State, s.mem.wf = true →
    (∀ address : BitVec 24,
      let a : Word := address.signExtend 32
      memAddr s a = true → codeAddr s a = false →
      ∃ t, exec (.spc address) s = .next t ∧ t.mem.word a = s.pc2 + 1 ∧ t.mar = a ∧ t.disp = a ∧
        Plain { stored := some a, mar := true, disp := true } s t) ∧
    (∀ (base : Reg) (offset : BitVec 20),
      let a := reg s base + offset.signExtend 32
      NotLoading [base] s → memAddr s a = true → codeAddr s a = false →
      ∃ t, exec (.spcb base offset) s = .next t ∧ t.mem.word a = s.pc2 + 1 ∧
        t.mar = a ∧ t.disp = offset.signExtend 32 ∧
        Plain { stored := some a, mar := true, disp := true } s t) ∧
    ∀ (base : Reg) (p : Alu2) (offset : BitVec 8),
      let a := reg s base + offset.signExtend 32
      (alu2Privileged p = true → supervisor s = true) → NotLoading ([base] ++ alu2Regs p) s →
      memAddr s a = true → codeAddr s a = false →
      ∃ t, exec (.spcalu base p offset) s = .next t ∧ t.mem.word a = s.pc2 + 1 ∧
        t.mar = a ∧ t.disp = offset.signExtend 32 ∧ DoesPiece p [] s t ∧
        OnlyChanges { pieceChanges p with stored := some a, mar := true, disp := true } s t ∧
        SameSequencing (alone p s) t ∧ Notes none false false t

/-! ### The Surprise register and the saved program counter -/

/-- In supervisor state LDS replaces all of SUreg, and STS and SAVEPC store SUreg and `pcm`; none of
them changes the setting the machine runs under (R207, R221, R230; privileged by decision D31).
Constructors: lds sts savepc. -/
def Obligations.SystemTransfers : Prop :=
  ∀ (address : BitVec 24) (s : State),
    let a : Word := address.signExtend 32
    supervisor s = true → memAddr s a = true →
    (∃ t, exec (.lds address) s = .next t ∧ t.suReg = s.mem.word a ∧ t.mar = a ∧ t.disp = a ∧
      OnlyChanges { suReg := true, mar := true, disp := true } s t ∧ Continues s t ∧
      Notes none false true t) ∧
    (s.mem.wf = true → codeAddr s a = false →
      (∃ t, exec (.sts address) s = .next t ∧ t.mem.word a = s.suReg ∧ t.mar = a ∧ t.disp = a ∧
        Plain { stored := some a, mar := true, disp := true } s t) ∧
      ∃ t, exec (.savepc address) s = .next t ∧ t.mem.word a = s.pcm ∧ t.mar = a ∧ t.disp = a ∧
        Plain { stored := some a, mar := true, disp := true } s t)

/-- SCND sets the register to all ones if the test of the operand against the register's old value is
true, and to zero if it is not (R240). Constructors: scnd, and with set operands lt ge le gt lo hs ls
hi zand nzand zor nzor eq ne. -/
def Obligations.SetConditionally : Prop :=
  ∀ (c : Cond) (imm : Bool) (dst src : Reg) (s : State) (i : Instr),
    i = .scnd c imm dst src ∨ i = Instr.ofCond c (.set imm dst src) →
    NotLoading ([dst] ++ sourceRegs imm src) s →
    Yields i dst (if test c (source s imm src) (reg s dst) = true then 0xFFFFFFFF else 0) s

/-! ### Traps (45_setcond_trap.md, 60_exceptions.md) -/

/-- A TRAP whose test is false goes on (R242). That it writes its code into SUreg all the same, and
leaves the other bits of SUreg as they were, is the spec's own choice (R244: decision D12, log entry
17). Constructors: trap, and with trap operands lt ge le gt lo hs ls hi zand nzand zor nzor eq ne. -/
def Obligations.TrapNotTaken : Prop :=
  ∀ (c : Cond) (imm : Bool) (src2 src1 : Reg) (code : BitVec 11) (bit0 : Bool) (s : State)
    (i : Instr),
    i = .trap c imm src2 src1 code bit0 ∨ i = Instr.ofCond c (.trap imm src2 src1 code bit0) →
    NotLoading ([src2] ++ sourceRegs imm src1) s → s.ldsPrev = false →
    test c (source s imm src1) (reg s src2) = false →
    ∃ t, exec i s = .next t ∧ HoldsTrapCode code t.suReg ∧
      (∀ k, k = 0 ∨ 12 < k → t.suReg.getLsbD k = s.suReg.getLsbD k) ∧
      t.disp = code.signExtend 32 ∧ Plain { suReg := true, disp := true } s t

/-- TAKING THE TRAP: the code is in SUreg, the next instruction is at location 0, `pcm` is the address of
the annulled instruction, the setting is the one of a taken trap, which is supervisor state; no general
register, no memory and no other special register changes (R243, R257, R258; the setting is decisions
D13 and D14). The bits of SUreg outside the code are free (log entry 6). Constructors: trap, and with
trap operands lt ge le gt lo hs ls hi zand nzand zor nzor eq ne. -/
def Obligations.TrapTaken : Prop :=
  ∀ (c : Cond) (imm : Bool) (src2 src1 : Reg) (code : BitVec 11) (bit0 : Bool) (s : State)
    (i : Instr),
    i = .trap c imm src2 src1 code bit0 ∨ i = Instr.ofCond c (.trap imm src2 src1 code bit0) →
    NotLoading ([src2] ++ sourceRegs imm src1) s → s.ldsPrev = false →
    test c (source s imm src1) (reg s src2) = true →
    ∃ t, exec i s = .next t ∧ HoldsTrapCode code t.suReg ∧
      t.pc0 = 0 ∧ t.pc1 = 1 ∧ t.pc2 = 2 ∧ t.pcm = s.pc1 ∧
      t.suCur = .trapped ∧ t.suNxt = .trapped ∧ supervisor t = true ∧
      t.disp = code.signExtend 32 ∧ t.draws = s.draws + 1 ∧
      OnlyChanges { suReg := true, disp := true, draws := true } s t ∧ Notes none false false t

/-- ENTRY AND SAVING: a SAVEPC executed first after a taken trap stores the address of the instruction
that was annulled (R243, R263; that SAVEPC may run there is decision D13, log entry 11). -/
def Obligations.SavepcAfterTrap : Prop :=
  ∀ (c : Cond) (imm : Bool) (src2 src1 : Reg) (code : BitVec 11) (bit0 : Bool) (s t : State)
    (address : BitVec 24),
    let a : Word := address.signExtend 32
    s.mem.wf = true → test c (source s imm src1) (reg s src2) = true →
    memAddr s a = true → codeAddr s a = false →
    exec (.trap c imm src2 src1 code bit0) s = .next t →
    ∃ u, exec (.savepc address) t = .next u ∧ u.mem.word a = s.pc1 ∧ u.pc0 = 1 ∧
      u.suCur = .trapped

/-- RETURN: after JINDSS the first delay slot still runs under the setting that was next, and unless it
is a taken trap, the second delay slot runs under the SUreg word that JINDSS enabled (R26, R263,
R290). -/
def Obligations.SettingAfterReturn : Prop :=
  ∀ (address : BitVec 24) (i : Instr) (s t u : State),
    exec (.jindss address) s = .next t → exec i t = .next u → i.isTrap = false →
    t.suCur = s.suNxt ∧ u.pc0 = s.pc2 ∧ u.suCur = .enabled s.suReg

/-- No transfer of control takes effect at once but a taken trap: after every instruction the next one is
at the old `pc1`; after a taken trap the next one is at location 0, and `pcm` is the address annulled
(R37 to R39, R250). Two clauses are the spec's own choices: that `pcm` is the address just executed
away from a taken trap (R40: decision D9, log entry 15), and the setting of a taken trap (decisions D13
and D14, log entry 11). -/
def Obligations.OnlyTrapsSkipTheNextInstruction : Prop :=
  ∀ (i : Instr) (s t : State), exec i s = .next t →
    (t.pc0 = s.pc1 ∧ t.pcm = s.pc0 ∧ t.suCur = s.suNxt) ∨
    (i.isTrap = true ∧ t.pc0 = 0 ∧ t.pc1 = 1 ∧ t.pc2 = 2 ∧ t.pcm = s.pc1 ∧
      t.suCur = .trapped ∧ t.suNxt = .trapped)

/-! ### Where instructions stop (60_exceptions.md R252, R262) -/

/-- An illegal or a reserved word is refused by name, in every state. The source says that illegal
opcodes "will be rejected" and that a reserved operation is unpredictable; that the model refuses both
is the spec's own choice (R85, R86, R253, R254: decisions D15 and D17, log entry 19). Constructors:
illegal reserved. -/
def Obligations.IllegalAndReservedRefused : Prop :=
  ∀ (w : Word) (s : State),
    exec (.illegal w) s = .refused (.illegalInstruction w) ∧
    exec (.reserved w) s = .refused (.reservedOperation w)

/-- An instruction is refused for its privilege exactly if it holds a privileged operation and runs in
user state, before every other check, and under the name of its own word (R255, R262, R265, R267;
decisions D16, D31). -/
def Obligations.PrivilegeRefusalsExact : Prop :=
  ∀ (i : Instr) (s : State) (w : Word),
    exec i s = .refused (.privilegeViolation w) ↔ Unprivileged i s ∧ w = encode i

/-- The hazards the spec refuses, each exactly where it says, in the order of R262: a use of the register
just loaded, an access to PC(current) in OD directly after an indirect jump, and a register conflict
(R285 to R288, R292; decisions D18, D19, D32). -/
def Obligations.HazardRefusalsExact : Prop :=
  ∀ (i : Instr) (s : State) (w : Word),
    (exec i s = .refused (.loadDelayViolation w) ↔
      i.legal = true ∧ ¬ Unprivileged i s ∧ ¬ NotLoading i.uses s ∧ w = encode i) ∧
    (exec i s = .refused (.pcAccessConflict w) ↔
      i.legal = true ∧ ¬ Unprivileged i s ∧ NotLoading i.uses s ∧ PcConflict i s ∧ w = encode i) ∧
    (exec i s = .refused (.registerConflict w) ↔
      i.legal = true ∧ ¬ Unprivileged i s ∧ NotLoading i.uses s ∧ ¬ PcConflict i s ∧
      i.conflicts s = true ∧ w = encode i)

/-- An instruction no check has refused faults at an address outside memory, and is refused at a store
into the program, exactly at the address its registers form (R51, R57, R58, R64; decisions D22, D27). -/
def Obligations.AccessStopsExact : Prop :=
  ∀ (i : Instr) (s : State) (a : Word), i.legal = true → ¬ Unprivileged i s →
    NotLoading i.uses s → ¬ PcConflict i s → i.conflicts s = false →
    (exec i s = .fault (.badAddress a) ↔
      (i.access s = .load a ∨ i.access s = .store a) ∧ memAddr s a = false) ∧
    (exec i s = .refused (.storeToCode a) ↔
      i.access s = .store a ∧ memAddr s a = true ∧ codeAddr s a = true)

/-- EVERY INSTRUCTION COMPLETES exactly where none of the model's refusals and faults applies. They are
those of R252, but for `UnwrittenRegister`, which the model does not have: a register nothing has
written reads as its reset value (log entry 7, the model's choice). That the rest stop an instruction
is the spec's own choice (decisions D15 to D19, D22, D26, D27, D31, D32; log entries 18, 19, 20, 23). All
constructors. -/
def Obligations.CompletesExactlyWhenReady : Prop :=
  ∀ (i : Instr) (s : State), (∃ t, exec i s = .next t) ↔ Ready i s

/-! ### The whole machine -/

/-- Reset is as the log says, the spec giving no reset values: every register 0 (entry 1), the entry
address (entry 2), memory listing nothing (entry 3), no program, so that the first step faults (entry
4), supervisor state under both settings (entry 8), and memory at every address (entry 9). The hazard
bookkeeping is empty, as R280 and R292 say. The state has the invariant. -/
def Obligations.ResetState : Prop :=
  let r := State.reset
  Inv r ∧
  (∀ n, reg r n = 0) ∧ r.pcm = 0 ∧ r.pcp1 = 0 ∧ r.mar = 0 ∧ r.disp = 0 ∧ r.suReg = 0 ∧
  r.ap = 0 ∧ r.ma = 0 ∧ r.hi = 0 ∧ r.lo = 0 ∧ r.db = false ∧
  r.pc0 = Config.entry ∧ r.pc1 = Config.entry + 1 ∧ r.pc2 = Config.entry + 2 ∧ Config.entry = 0x100 ∧
  r.mem = [] ∧ (∀ a, r.mem.word a = 0) ∧
  r.codeDomain = [] ∧ step r = .fault (.badAddress Config.entry) ∧
  r.suCur = .trapped ∧ r.suNxt = .trapped ∧ supervisor r = true ∧ (∀ a, memAddr r a = true) ∧
  Notes none false false r

/-- THE INVARIANT: every step keeps memory in its canonical form and at most one note of the hazard
bookkeeping (log entry 3, R292). -/
def Obligations.StepKeepsInv : Prop :=
  ∀ s t : State, Inv s → step s = .next t → Inv t

/-- THE PROGRAM IS FIXED: no step changes a word of the program or either domain (R64, R291; decision
D22). -/
def Obligations.StepKeepsProgram : Prop :=
  ∀ (memDomain codeDomain : List Span) (program : Word → Word) (s t : State),
    ProgramIs memDomain codeDomain program s → step s = .next t →
    ProgramIs memDomain codeDomain program t

/-- The one data access of an instruction is the only way it changes memory: a store changes no byte
outside the word at its address, and every other instruction leaves memory as it is (R51, R58). -/
def Obligations.MemoryChangesOnlyAtTheStore : Prop :=
  ∀ (i : Instr) (s t : State), s.mem.wf = true → exec i s = .next t →
    (∀ a, i.access s = .store a → ∀ p, p / 4 ≠ a.toNat → t.mem.byte p = s.mem.byte p) ∧
    ((∀ a, i.access s ≠ .store a) → t.mem = s.mem)

/-- USER STATE CANNOT CHANGE SYSTEM STATE: an instruction executed in user state leaves Ap and Ma
alone, changes the Surprise setting only by taking a trap, and writes SUreg only as a TRAP (R25, R255,
R267; decisions D13, D14, D31). -/
def Obligations.UserStateKeepsSystemState : Prop :=
  ∀ (i : Instr) (s t : State), supervisor s = false → exec i s = .next t →
    t.ap = s.ap ∧ t.ma = s.ma ∧ (t.suNxt = s.suNxt ∨ i.isTrap = true ∧ t.suNxt = .trapped) ∧
    (t.suReg = s.suReg ∨ i.isTrap = true)

/-- USER STATE CANNOT READ SYSTEM STATE: whatever Ap, Ma and SUreg hold, an instruction executed in user
state goes the same way and leaves the same state beside them (R25, R255, R267; decision D31). -/
def Obligations.UserStateCannotReadSystemState : Prop :=
  ∀ (i : Instr) (s : State) (x y z : Word), supervisor s = false →
    let s' : State := { s with ap := x, ma := y, suReg := z }
    (∀ t, exec i s = .next t →
      ∃ z', exec i s' = .next { t with ap := x, ma := y, suReg := z' }) ∧
    (∀ f, exec i s = .fault f → exec i s' = .fault f) ∧
    ∀ r, exec i s = .refused r → exec i s' = .refused r

/-- SUreg is written by LDS and TRAP only, and the Surprise setting that comes next is changed by JINDSS,
which makes it the SUreg word, and by a TRAP whose test is true, which makes it the setting of a taken
trap, only (R25, R26, R267; the setting of a taken trap is decisions D13 and D14, log entry 11). -/
def Obligations.SurpriseRegisterWriters : Prop :=
  ∀ (i : Instr) (s t : State), exec i s = .next t →
    (t.suReg ≠ s.suReg → i.isLds = true ∨ i.isTrap = true) ∧
    (t.suNxt ≠ s.suNxt →
      ((∃ a, i = .jindss a) ∧ t.suNxt = .enabled s.suReg) ∨
      (i.takesTrap s = true ∧ t.suNxt = .trapped ∧ t.pc0 = 0 ∧ t.pc1 = 1 ∧ t.pc2 = 2))
end

