-- ==== Sys2Proof/Laws/Encoding.lean ====
section
/-! SUPPORT. The fields of words built by `place`, for proofs that decode and encode agree. -/

namespace Sys2Proof

theorem field_or (a b : Word) (lo n : Nat) :
    field (a ||| b) lo n = field a lo n ||| field b lo n := by
  ext i hi
  simp [field]

/-- A field reads back what was placed there. -/
theorem field_place_same {n : Nat} (v : BitVec n) (lo : Nat) (h : lo + n ≤ 32) :
    field (place v lo) lo n = v := by
  ext i hi
  simp only [field, place, BitVec.getElem_extractLsb', BitVec.getLsbD_shiftLeft,
    BitVec.getLsbD_setWidth]
  simp only [show lo + i < 32 by omega, show ¬ lo + i < lo by omega, show lo + i - lo = i by omega,
    show i < 32 by omega, decide_true, decide_false, Bool.not_false, Bool.true_and,
    BitVec.getLsbD_eq_getElem hi]

/-- A field is zero where something else was placed. -/
theorem field_place_other {n : Nat} (v : BitVec n) (lo lo' n' : Nat)
    (h : lo + n ≤ lo' ∨ lo' + n' ≤ lo) : field (place v lo) lo' n' = 0 := by
  ext i hi
  simp only [field, place, BitVec.getElem_extractLsb', BitVec.getLsbD_shiftLeft,
    BitVec.getLsbD_setWidth, BitVec.getElem_zero, BitVec.ofNat_eq_ofNat]
  rcases h with h | h
  · rw [BitVec.getLsbD_of_ge v _ (by omega)]
    simp
  · simp [show lo' + i < lo by omega]

theorem flag_or (a b : Word) (k : Nat) : flag (a ||| b) k = (flag a k || flag b k) := by
  simp [flag]

/-- A flag reads back what was placed there. -/
theorem flag_placeFlag_same (b : Bool) (k : Nat) (h : k < 32) : flag (placeFlag b k) k = b := by
  simp [flag, placeFlag, place, h]

/-- A flag is clear where a field was placed elsewhere. -/
theorem flag_place_other {n : Nat} (v : BitVec n) (lo k : Nat) (h : lo + n ≤ k ∨ k < lo) :
    flag (place v lo) k = false := by
  simp only [flag, place, BitVec.getLsbD_shiftLeft, BitVec.getLsbD_setWidth]
  rcases h with h | h
  · rw [BitVec.getLsbD_of_ge v _ (by omega)]
    simp
  · simp [h]

/-- Two adjacent fields of a word, in place, are the joined field in place. -/
theorem place_field_join (w : Word) (lo n m : Nat) :
    place (field w (lo + n) m) (lo + n) ||| place (field w lo n) lo
      = place (field w lo (n + m)) lo := by
  ext i hi
  simp only [field, place, BitVec.getElem_or, BitVec.getElem_shiftLeft]
  by_cases h1 : i < lo
  · simp [h1, show i < lo + n by omega]
  · by_cases h2 : i < lo + n
    · simp [h1, h2, show i - lo < n by omega, show i - lo < n + m by omega]
    · by_cases h3 : i - (lo + n) < m
      · simp [h1, h2, h3, show ¬ i - lo < n by omega, show i - lo < n + m by omega,
          show lo + n + (i - (lo + n)) = lo + (i - lo) by omega]
      · simp [h1, h2, h3, show ¬ i - lo < n by omega, show ¬ i - lo < n + m by omega]

/-- A whole word is its one field. -/
theorem place_field_whole (w : Word) : place (field w 0 32) 0 = w := by
  simp [place, field]

end Sys2Proof
end

