-- ==== Sys2Proof/Laws/Memory.lean ====
section
/-! SUPPORT. Memory: reading after writing, and that every memory operation keeps the canonical
form. -/

namespace Sys2Proof.Machine

/-! ### Bytes -/

/-- A key below every listed one reads as unlisted. -/
theorem byte_of_lt {low p : Nat} {m : Memory} (h : Memory.wfFrom low m = true) (hp : p < low) :
    m.byte p = unlistedByte := by
  induction m generalizing low with
  | nil => rfl
  | cons c m ih =>
    obtain ⟨k, v⟩ := c
    simp only [Memory.wfFrom, Bool.and_eq_true, decide_eq_true_eq] at h
    simp only [Memory.byte]
    rw [if_neg (by omega), ih h.2 (by omega)]

/-- Reading a byte after writing one, in a canonical memory. -/
theorem byte_setByte {low : Nat} {m : Memory} (h : Memory.wfFrom low m = true) (p q : Nat)
    (b : Byte) : (m.setByte p b).byte q = if q = p then b else m.byte q := by
  induction m generalizing low with
  | nil =>
    by_cases hb : b = unlistedByte <;>
      simp [Memory.setByte, Memory.byte, hb, @eq_comm _ p q]
  | cons c m ih =>
    obtain ⟨k, v⟩ := c
    simp only [Memory.wfFrom, Bool.and_eq_true, decide_eq_true_eq] at h
    have hm := h.2
    by_cases h1 : p < k
    · by_cases hb : b = unlistedByte
      · by_cases hq : q = p
        · subst hq
          simp [Memory.setByte, Memory.byte, h1, hb, show k ≠ q by omega,
            byte_of_lt hm (show q < k + 1 by omega)]
        · simp [Memory.setByte, Memory.byte, h1, hb, hq]
      · by_cases hq : q = p
        · simp [Memory.setByte, Memory.byte, h1, hb, hq]
        · simp [Memory.setByte, Memory.byte, h1, hb, hq, Ne.symm hq]
    · by_cases h2 : p = k
      · subst h2
        by_cases hb : b = unlistedByte
        · by_cases hq : q = p
          · subst hq
            simp [Memory.setByte, hb, byte_of_lt hm (show q < q + 1 by omega)]
          · simp [Memory.setByte, Memory.byte, hb, hq, Ne.symm hq]
        · by_cases hq : q = p
          · simp [Memory.setByte, Memory.byte, hb, hq]
          · simp [Memory.setByte, Memory.byte, hb, hq, Ne.symm hq]
      · by_cases hk : k = q
        · subst hk
          simp [Memory.setByte, Memory.byte, h1, h2, Ne.symm h2]
        · simp [Memory.setByte, Memory.byte, h1, h2, hk, ih hm]

/-- A write keeps the canonical form. -/
theorem wfFrom_setByte {low : Nat} {m : Memory} (h : Memory.wfFrom low m = true) {p : Nat}
    (b : Byte) (hlow : low ≤ p) (hp : p < keyLimit) : Memory.wfFrom low (m.setByte p b) = true := by
  induction m generalizing low with
  | nil =>
    by_cases hb : b = unlistedByte <;> simp [Memory.setByte, Memory.wfFrom, hb, hlow, hp]
  | cons c m ih =>
    obtain ⟨k, v⟩ := c
    simp only [Memory.wfFrom, Bool.and_eq_true, decide_eq_true_eq] at h
    obtain ⟨⟨⟨hk1, hk2⟩, hv⟩, hm⟩ := h
    by_cases h1 : p < k
    · by_cases hb : b = unlistedByte
      · simp [Memory.setByte, Memory.wfFrom, h1, hb, hk1, hk2, hm]
        simpa using hv
      · simp [Memory.setByte, Memory.wfFrom, h1, hb, hlow, hp, hk2, hm, show p + 1 ≤ k by omega]
        simpa using hv
    · by_cases h2 : p = k
      · subst h2
        by_cases hb : b = unlistedByte
        · simp only [Memory.setByte, hb, lt_irrefl, if_false, if_true]
          exact wfFrom_mono hm (by omega)
        · simp [Memory.setByte, Memory.wfFrom, hb, hlow, hp, hm]
      · simp only [Memory.setByte, h1, h2, if_false, Memory.wfFrom, Bool.and_eq_true,
          decide_eq_true_eq]
        exact ⟨⟨⟨hk1, hk2⟩, hv⟩, ih hm (by omega)⟩
where
  /-- The canonical form holds above every smaller bound. -/
  wfFrom_mono {low low' : Nat} {m : Memory} (h : Memory.wfFrom low m = true) (hl : low' ≤ low) :
      Memory.wfFrom low' m = true := by
    cases m with
    | nil => rfl
    | cons c m =>
      obtain ⟨k, v⟩ := c
      simp only [Memory.wfFrom, Bool.and_eq_true, decide_eq_true_eq] at h ⊢
      exact ⟨⟨⟨by omega, h.1.1.2⟩, h.1.2⟩, h.2⟩

/-! ### Words -/

theorem byteKey_lt (a : Word) {k : Nat} (hk : k < 4) : byteKey a k < keyLimit := by
  have := a.isLt
  simp only [byteKey, keyLimit]
  omega

theorem byteKey_inj {a b : Word} {j k : Nat} (hj : j < 4) (hk : k < 4) :
    byteKey a j = byteKey b k ↔ a = b ∧ j = k := by
  constructor
  · intro h
    simp only [byteKey] at h
    exact ⟨BitVec.eq_of_toNat_eq (by omega), by omega⟩
  · rintro ⟨rfl, rfl⟩
    rfl

/-- A word write keeps the canonical form. -/
theorem wf_setWord {m : Memory} (h : m.wf = true) (a v : Word) : (m.setWord a v).wf = true := by
  unfold Memory.wf Memory.setWord at *
  have h0 := wfFrom_setByte h (byteOf v 0) (Nat.zero_le _) (byteKey_lt a (k := 0) (by omega))
  have h1 := wfFrom_setByte h0 (byteOf v 1) (Nat.zero_le _) (byteKey_lt a (k := 1) (by omega))
  have h2 := wfFrom_setByte h1 (byteOf v 2) (Nat.zero_le _) (byteKey_lt a (k := 2) (by omega))
  exact wfFrom_setByte h2 (byteOf v 3) (Nat.zero_le _) (byteKey_lt a (k := 3) (by omega))

/-- Reading a byte after a word write: a byte of the word inside its four keys, the old byte
outside. -/
theorem byte_setWord {m : Memory} (h : m.wf = true) (a v : Word) (q : Nat) :
    (m.setWord a v).byte q = if q / 4 = a.toNat then byteOf v (q % 4) else m.byte q := by
  unfold Memory.wf at h
  have h0 := wfFrom_setByte h (byteOf v 0) (Nat.zero_le _) (byteKey_lt a (k := 0) (by omega))
  have h1 := wfFrom_setByte h0 (byteOf v 1) (Nat.zero_le _) (byteKey_lt a (k := 1) (by omega))
  have h2 := wfFrom_setByte h1 (byteOf v 2) (Nat.zero_le _) (byteKey_lt a (k := 2) (by omega))
  unfold Memory.setWord
  rw [byte_setByte h2, byte_setByte h1, byte_setByte h0, byte_setByte h]
  have e (k : Nat) (hk : k < 4) : q = byteKey a k ↔ q / 4 = a.toNat ∧ q % 4 = k := by
    unfold byteKey
    omega
  simp only [e 0 (by omega), e 1 (by omega), e 2 (by omega), e 3 (by omega)]
  by_cases hq : q / 4 = a.toNat
  · have h4 : q % 4 = 0 ∨ q % 4 = 1 ∨ q % 4 = 2 ∨ q % 4 = 3 := by omega
    rcases h4 with hk | hk | hk | hk <;> simp [hq, hk]
  · simp [hq]

/-- Reset's memory has the canonical form. -/
theorem wf_nil : Memory.wf [] = true := rfl

end Sys2Proof.Machine
end

