-- ==== Sys2Proof/Laws/State.lean ====
section
/-! SUPPORT. One lemma per field per update of the state, and what the register read gives after
each, so that no proof unfolds a record update. -/

namespace Sys2Proof.Machine

variable (s : State)

/-! ### Registers -/

/-- Reading a general register after a write: the value written there, the old one elsewhere. -/
theorem reg_setReg_eq (d r : Reg) (v : Word) :
    reg (setReg s d v) r = if r = d then v else reg s r := by
  simp [reg, setReg, Vector.getElem_set, BitVec.toNat_inj, eq_comm]

@[simp] theorem reg_setReg_same (d : Reg) (v : Word) : reg (setReg s d v) d = v := by
  simp [reg_setReg_eq]

theorem reg_setReg_other {d r : Reg} (v : Word) (h : r ≠ d) : reg (setReg s d v) r = reg s r := by
  simp [reg_setReg_eq, h]

theorem reg_loadReg_eq (d r : Reg) (v : Word) :
    reg (loadReg s d v) r = if r = d then v else reg s r := reg_setReg_eq s d r v

@[simp] theorem reg_loadReg_same (d : Reg) (v : Word) : reg (loadReg s d v) d = v := by
  simp [reg_loadReg_eq]

theorem reg_loadReg_other {d r : Reg} (v : Word) (h : r ≠ d) :
    reg (loadReg s d v) r = reg s r := by
  simp [reg_loadReg_eq, h]

/-- Two states with the same sixteen registers have the same register file. -/
theorem regs_eq_of_reg {s t : State} (h : ∀ r, reg s r = reg t r) : s.regs = t.regs := by
  apply Vector.ext
  intro i hi
  have := h (BitVec.ofNat 4 i)
  simpa [reg, Nat.mod_eq_of_lt hi] using this

/-! ### `setReg` -/

@[simp] theorem setReg_regs (n : Reg) (v : Word) : (setReg s n v).regs = s.regs.set n.toNat v n.isLt := rfl
@[simp] theorem setReg_pc0 (n : Reg) (v : Word) : (setReg s n v).pc0 = s.pc0 := rfl
@[simp] theorem setReg_pc1 (n : Reg) (v : Word) : (setReg s n v).pc1 = s.pc1 := rfl
@[simp] theorem setReg_pc2 (n : Reg) (v : Word) : (setReg s n v).pc2 = s.pc2 := rfl
@[simp] theorem setReg_pcm (n : Reg) (v : Word) : (setReg s n v).pcm = s.pcm := rfl
@[simp] theorem setReg_pcp1 (n : Reg) (v : Word) : (setReg s n v).pcp1 = s.pcp1 := rfl
@[simp] theorem setReg_mar (n : Reg) (v : Word) : (setReg s n v).mar = s.mar := rfl
@[simp] theorem setReg_disp (n : Reg) (v : Word) : (setReg s n v).disp = s.disp := rfl
@[simp] theorem setReg_suReg (n : Reg) (v : Word) : (setReg s n v).suReg = s.suReg := rfl
@[simp] theorem setReg_suCur (n : Reg) (v : Word) : (setReg s n v).suCur = s.suCur := rfl
@[simp] theorem setReg_suNxt (n : Reg) (v : Word) : (setReg s n v).suNxt = s.suNxt := rfl
@[simp] theorem setReg_ap (n : Reg) (v : Word) : (setReg s n v).ap = s.ap := rfl
@[simp] theorem setReg_ma (n : Reg) (v : Word) : (setReg s n v).ma = s.ma := rfl
@[simp] theorem setReg_hi (n : Reg) (v : Word) : (setReg s n v).hi = s.hi := rfl
@[simp] theorem setReg_lo (n : Reg) (v : Word) : (setReg s n v).lo = s.lo := rfl
@[simp] theorem setReg_db (n : Reg) (v : Word) : (setReg s n v).db = s.db := rfl
@[simp] theorem setReg_mem (n : Reg) (v : Word) : (setReg s n v).mem = s.mem := rfl
@[simp] theorem setReg_memDomain (n : Reg) (v : Word) : (setReg s n v).memDomain = s.memDomain := rfl
@[simp] theorem setReg_codeDomain (n : Reg) (v : Word) : (setReg s n v).codeDomain = s.codeDomain := rfl
@[simp] theorem setReg_supWords (n : Reg) (v : Word) : (setReg s n v).supWords = s.supWords := rfl
@[simp] theorem setReg_ldPrev (n : Reg) (v : Word) : (setReg s n v).ldPrev = s.ldPrev := rfl
@[simp] theorem setReg_jd2Prev (n : Reg) (v : Word) : (setReg s n v).jd2Prev = s.jd2Prev := rfl
@[simp] theorem setReg_ldsPrev (n : Reg) (v : Word) : (setReg s n v).ldsPrev = s.ldsPrev := rfl
@[simp] theorem setReg_draws (n : Reg) (v : Word) : (setReg s n v).draws = s.draws := rfl
@[simp] theorem memAddr_setReg (n : Reg) (v : Word) (a : Word) : memAddr (setReg s n v) a = memAddr s a := rfl
@[simp] theorem codeAddr_setReg (n : Reg) (v : Word) (a : Word) : codeAddr (setReg s n v) a = codeAddr s a := rfl

/-! ### `setDisp` -/

@[simp] theorem reg_setDisp (v : Word) (r : Reg) : reg (setDisp s v) r = reg s r := rfl
@[simp] theorem setDisp_regs (v : Word) : (setDisp s v).regs = s.regs := rfl
@[simp] theorem setDisp_pc0 (v : Word) : (setDisp s v).pc0 = s.pc0 := rfl
@[simp] theorem setDisp_pc1 (v : Word) : (setDisp s v).pc1 = s.pc1 := rfl
@[simp] theorem setDisp_pc2 (v : Word) : (setDisp s v).pc2 = s.pc2 := rfl
@[simp] theorem setDisp_pcm (v : Word) : (setDisp s v).pcm = s.pcm := rfl
@[simp] theorem setDisp_pcp1 (v : Word) : (setDisp s v).pcp1 = s.pcp1 := rfl
@[simp] theorem setDisp_mar (v : Word) : (setDisp s v).mar = s.mar := rfl
@[simp] theorem setDisp_disp (v : Word) : (setDisp s v).disp = v := rfl
@[simp] theorem setDisp_suReg (v : Word) : (setDisp s v).suReg = s.suReg := rfl
@[simp] theorem setDisp_suCur (v : Word) : (setDisp s v).suCur = s.suCur := rfl
@[simp] theorem setDisp_suNxt (v : Word) : (setDisp s v).suNxt = s.suNxt := rfl
@[simp] theorem setDisp_ap (v : Word) : (setDisp s v).ap = s.ap := rfl
@[simp] theorem setDisp_ma (v : Word) : (setDisp s v).ma = s.ma := rfl
@[simp] theorem setDisp_hi (v : Word) : (setDisp s v).hi = s.hi := rfl
@[simp] theorem setDisp_lo (v : Word) : (setDisp s v).lo = s.lo := rfl
@[simp] theorem setDisp_db (v : Word) : (setDisp s v).db = s.db := rfl
@[simp] theorem setDisp_mem (v : Word) : (setDisp s v).mem = s.mem := rfl
@[simp] theorem setDisp_memDomain (v : Word) : (setDisp s v).memDomain = s.memDomain := rfl
@[simp] theorem setDisp_codeDomain (v : Word) : (setDisp s v).codeDomain = s.codeDomain := rfl
@[simp] theorem setDisp_supWords (v : Word) : (setDisp s v).supWords = s.supWords := rfl
@[simp] theorem setDisp_ldPrev (v : Word) : (setDisp s v).ldPrev = s.ldPrev := rfl
@[simp] theorem setDisp_jd2Prev (v : Word) : (setDisp s v).jd2Prev = s.jd2Prev := rfl
@[simp] theorem setDisp_ldsPrev (v : Word) : (setDisp s v).ldsPrev = s.ldsPrev := rfl
@[simp] theorem setDisp_draws (v : Word) : (setDisp s v).draws = s.draws := rfl
@[simp] theorem memAddr_setDisp (v : Word) (a : Word) : memAddr (setDisp s v) a = memAddr s a := rfl
@[simp] theorem codeAddr_setDisp (v : Word) (a : Word) : codeAddr (setDisp s v) a = codeAddr s a := rfl

/-! ### `setMar` -/

@[simp] theorem reg_setMar (v : Word) (r : Reg) : reg (setMar s v) r = reg s r := rfl
@[simp] theorem setMar_regs (v : Word) : (setMar s v).regs = s.regs := rfl
@[simp] theorem setMar_pc0 (v : Word) : (setMar s v).pc0 = s.pc0 := rfl
@[simp] theorem setMar_pc1 (v : Word) : (setMar s v).pc1 = s.pc1 := rfl
@[simp] theorem setMar_pc2 (v : Word) : (setMar s v).pc2 = s.pc2 := rfl
@[simp] theorem setMar_pcm (v : Word) : (setMar s v).pcm = s.pcm := rfl
@[simp] theorem setMar_pcp1 (v : Word) : (setMar s v).pcp1 = s.pcp1 := rfl
@[simp] theorem setMar_mar (v : Word) : (setMar s v).mar = v := rfl
@[simp] theorem setMar_disp (v : Word) : (setMar s v).disp = s.disp := rfl
@[simp] theorem setMar_suReg (v : Word) : (setMar s v).suReg = s.suReg := rfl
@[simp] theorem setMar_suCur (v : Word) : (setMar s v).suCur = s.suCur := rfl
@[simp] theorem setMar_suNxt (v : Word) : (setMar s v).suNxt = s.suNxt := rfl
@[simp] theorem setMar_ap (v : Word) : (setMar s v).ap = s.ap := rfl
@[simp] theorem setMar_ma (v : Word) : (setMar s v).ma = s.ma := rfl
@[simp] theorem setMar_hi (v : Word) : (setMar s v).hi = s.hi := rfl
@[simp] theorem setMar_lo (v : Word) : (setMar s v).lo = s.lo := rfl
@[simp] theorem setMar_db (v : Word) : (setMar s v).db = s.db := rfl
@[simp] theorem setMar_mem (v : Word) : (setMar s v).mem = s.mem := rfl
@[simp] theorem setMar_memDomain (v : Word) : (setMar s v).memDomain = s.memDomain := rfl
@[simp] theorem setMar_codeDomain (v : Word) : (setMar s v).codeDomain = s.codeDomain := rfl
@[simp] theorem setMar_supWords (v : Word) : (setMar s v).supWords = s.supWords := rfl
@[simp] theorem setMar_ldPrev (v : Word) : (setMar s v).ldPrev = s.ldPrev := rfl
@[simp] theorem setMar_jd2Prev (v : Word) : (setMar s v).jd2Prev = s.jd2Prev := rfl
@[simp] theorem setMar_ldsPrev (v : Word) : (setMar s v).ldsPrev = s.ldsPrev := rfl
@[simp] theorem setMar_draws (v : Word) : (setMar s v).draws = s.draws := rfl
@[simp] theorem memAddr_setMar (v : Word) (a : Word) : memAddr (setMar s v) a = memAddr s a := rfl
@[simp] theorem codeAddr_setMar (v : Word) (a : Word) : codeAddr (setMar s v) a = codeAddr s a := rfl

/-! ### `setPcp1` -/

@[simp] theorem reg_setPcp1 (v : Word) (r : Reg) : reg (setPcp1 s v) r = reg s r := rfl
@[simp] theorem setPcp1_regs (v : Word) : (setPcp1 s v).regs = s.regs := rfl
@[simp] theorem setPcp1_pc0 (v : Word) : (setPcp1 s v).pc0 = s.pc0 := rfl
@[simp] theorem setPcp1_pc1 (v : Word) : (setPcp1 s v).pc1 = s.pc1 := rfl
@[simp] theorem setPcp1_pc2 (v : Word) : (setPcp1 s v).pc2 = s.pc2 := rfl
@[simp] theorem setPcp1_pcm (v : Word) : (setPcp1 s v).pcm = s.pcm := rfl
@[simp] theorem setPcp1_pcp1 (v : Word) : (setPcp1 s v).pcp1 = v := rfl
@[simp] theorem setPcp1_mar (v : Word) : (setPcp1 s v).mar = s.mar := rfl
@[simp] theorem setPcp1_disp (v : Word) : (setPcp1 s v).disp = s.disp := rfl
@[simp] theorem setPcp1_suReg (v : Word) : (setPcp1 s v).suReg = s.suReg := rfl
@[simp] theorem setPcp1_suCur (v : Word) : (setPcp1 s v).suCur = s.suCur := rfl
@[simp] theorem setPcp1_suNxt (v : Word) : (setPcp1 s v).suNxt = s.suNxt := rfl
@[simp] theorem setPcp1_ap (v : Word) : (setPcp1 s v).ap = s.ap := rfl
@[simp] theorem setPcp1_ma (v : Word) : (setPcp1 s v).ma = s.ma := rfl
@[simp] theorem setPcp1_hi (v : Word) : (setPcp1 s v).hi = s.hi := rfl
@[simp] theorem setPcp1_lo (v : Word) : (setPcp1 s v).lo = s.lo := rfl
@[simp] theorem setPcp1_db (v : Word) : (setPcp1 s v).db = s.db := rfl
@[simp] theorem setPcp1_mem (v : Word) : (setPcp1 s v).mem = s.mem := rfl
@[simp] theorem setPcp1_memDomain (v : Word) : (setPcp1 s v).memDomain = s.memDomain := rfl
@[simp] theorem setPcp1_codeDomain (v : Word) : (setPcp1 s v).codeDomain = s.codeDomain := rfl
@[simp] theorem setPcp1_supWords (v : Word) : (setPcp1 s v).supWords = s.supWords := rfl
@[simp] theorem setPcp1_ldPrev (v : Word) : (setPcp1 s v).ldPrev = s.ldPrev := rfl
@[simp] theorem setPcp1_jd2Prev (v : Word) : (setPcp1 s v).jd2Prev = s.jd2Prev := rfl
@[simp] theorem setPcp1_ldsPrev (v : Word) : (setPcp1 s v).ldsPrev = s.ldsPrev := rfl
@[simp] theorem setPcp1_draws (v : Word) : (setPcp1 s v).draws = s.draws := rfl
@[simp] theorem memAddr_setPcp1 (v : Word) (a : Word) : memAddr (setPcp1 s v) a = memAddr s a := rfl
@[simp] theorem codeAddr_setPcp1 (v : Word) (a : Word) : codeAddr (setPcp1 s v) a = codeAddr s a := rfl

/-! ### `setAp` -/

@[simp] theorem reg_setAp (v : Word) (r : Reg) : reg (setAp s v) r = reg s r := rfl
@[simp] theorem setAp_regs (v : Word) : (setAp s v).regs = s.regs := rfl
@[simp] theorem setAp_pc0 (v : Word) : (setAp s v).pc0 = s.pc0 := rfl
@[simp] theorem setAp_pc1 (v : Word) : (setAp s v).pc1 = s.pc1 := rfl
@[simp] theorem setAp_pc2 (v : Word) : (setAp s v).pc2 = s.pc2 := rfl
@[simp] theorem setAp_pcm (v : Word) : (setAp s v).pcm = s.pcm := rfl
@[simp] theorem setAp_pcp1 (v : Word) : (setAp s v).pcp1 = s.pcp1 := rfl
@[simp] theorem setAp_mar (v : Word) : (setAp s v).mar = s.mar := rfl
@[simp] theorem setAp_disp (v : Word) : (setAp s v).disp = s.disp := rfl
@[simp] theorem setAp_suReg (v : Word) : (setAp s v).suReg = s.suReg := rfl
@[simp] theorem setAp_suCur (v : Word) : (setAp s v).suCur = s.suCur := rfl
@[simp] theorem setAp_suNxt (v : Word) : (setAp s v).suNxt = s.suNxt := rfl
@[simp] theorem setAp_ap (v : Word) : (setAp s v).ap = v := rfl
@[simp] theorem setAp_ma (v : Word) : (setAp s v).ma = s.ma := rfl
@[simp] theorem setAp_hi (v : Word) : (setAp s v).hi = s.hi := rfl
@[simp] theorem setAp_lo (v : Word) : (setAp s v).lo = s.lo := rfl
@[simp] theorem setAp_db (v : Word) : (setAp s v).db = s.db := rfl
@[simp] theorem setAp_mem (v : Word) : (setAp s v).mem = s.mem := rfl
@[simp] theorem setAp_memDomain (v : Word) : (setAp s v).memDomain = s.memDomain := rfl
@[simp] theorem setAp_codeDomain (v : Word) : (setAp s v).codeDomain = s.codeDomain := rfl
@[simp] theorem setAp_supWords (v : Word) : (setAp s v).supWords = s.supWords := rfl
@[simp] theorem setAp_ldPrev (v : Word) : (setAp s v).ldPrev = s.ldPrev := rfl
@[simp] theorem setAp_jd2Prev (v : Word) : (setAp s v).jd2Prev = s.jd2Prev := rfl
@[simp] theorem setAp_ldsPrev (v : Word) : (setAp s v).ldsPrev = s.ldsPrev := rfl
@[simp] theorem setAp_draws (v : Word) : (setAp s v).draws = s.draws := rfl
@[simp] theorem memAddr_setAp (v : Word) (a : Word) : memAddr (setAp s v) a = memAddr s a := rfl
@[simp] theorem codeAddr_setAp (v : Word) (a : Word) : codeAddr (setAp s v) a = codeAddr s a := rfl

/-! ### `setMa` -/

@[simp] theorem reg_setMa (v : Word) (r : Reg) : reg (setMa s v) r = reg s r := rfl
@[simp] theorem setMa_regs (v : Word) : (setMa s v).regs = s.regs := rfl
@[simp] theorem setMa_pc0 (v : Word) : (setMa s v).pc0 = s.pc0 := rfl
@[simp] theorem setMa_pc1 (v : Word) : (setMa s v).pc1 = s.pc1 := rfl
@[simp] theorem setMa_pc2 (v : Word) : (setMa s v).pc2 = s.pc2 := rfl
@[simp] theorem setMa_pcm (v : Word) : (setMa s v).pcm = s.pcm := rfl
@[simp] theorem setMa_pcp1 (v : Word) : (setMa s v).pcp1 = s.pcp1 := rfl
@[simp] theorem setMa_mar (v : Word) : (setMa s v).mar = s.mar := rfl
@[simp] theorem setMa_disp (v : Word) : (setMa s v).disp = s.disp := rfl
@[simp] theorem setMa_suReg (v : Word) : (setMa s v).suReg = s.suReg := rfl
@[simp] theorem setMa_suCur (v : Word) : (setMa s v).suCur = s.suCur := rfl
@[simp] theorem setMa_suNxt (v : Word) : (setMa s v).suNxt = s.suNxt := rfl
@[simp] theorem setMa_ap (v : Word) : (setMa s v).ap = s.ap := rfl
@[simp] theorem setMa_ma (v : Word) : (setMa s v).ma = v := rfl
@[simp] theorem setMa_hi (v : Word) : (setMa s v).hi = s.hi := rfl
@[simp] theorem setMa_lo (v : Word) : (setMa s v).lo = s.lo := rfl
@[simp] theorem setMa_db (v : Word) : (setMa s v).db = s.db := rfl
@[simp] theorem setMa_mem (v : Word) : (setMa s v).mem = s.mem := rfl
@[simp] theorem setMa_memDomain (v : Word) : (setMa s v).memDomain = s.memDomain := rfl
@[simp] theorem setMa_codeDomain (v : Word) : (setMa s v).codeDomain = s.codeDomain := rfl
@[simp] theorem setMa_supWords (v : Word) : (setMa s v).supWords = s.supWords := rfl
@[simp] theorem setMa_ldPrev (v : Word) : (setMa s v).ldPrev = s.ldPrev := rfl
@[simp] theorem setMa_jd2Prev (v : Word) : (setMa s v).jd2Prev = s.jd2Prev := rfl
@[simp] theorem setMa_ldsPrev (v : Word) : (setMa s v).ldsPrev = s.ldsPrev := rfl
@[simp] theorem setMa_draws (v : Word) : (setMa s v).draws = s.draws := rfl
@[simp] theorem memAddr_setMa (v : Word) (a : Word) : memAddr (setMa s v) a = memAddr s a := rfl
@[simp] theorem codeAddr_setMa (v : Word) (a : Word) : codeAddr (setMa s v) a = codeAddr s a := rfl

/-! ### `setHi` -/

@[simp] theorem reg_setHi (v : Word) (r : Reg) : reg (setHi s v) r = reg s r := rfl
@[simp] theorem setHi_regs (v : Word) : (setHi s v).regs = s.regs := rfl
@[simp] theorem setHi_pc0 (v : Word) : (setHi s v).pc0 = s.pc0 := rfl
@[simp] theorem setHi_pc1 (v : Word) : (setHi s v).pc1 = s.pc1 := rfl
@[simp] theorem setHi_pc2 (v : Word) : (setHi s v).pc2 = s.pc2 := rfl
@[simp] theorem setHi_pcm (v : Word) : (setHi s v).pcm = s.pcm := rfl
@[simp] theorem setHi_pcp1 (v : Word) : (setHi s v).pcp1 = s.pcp1 := rfl
@[simp] theorem setHi_mar (v : Word) : (setHi s v).mar = s.mar := rfl
@[simp] theorem setHi_disp (v : Word) : (setHi s v).disp = s.disp := rfl
@[simp] theorem setHi_suReg (v : Word) : (setHi s v).suReg = s.suReg := rfl
@[simp] theorem setHi_suCur (v : Word) : (setHi s v).suCur = s.suCur := rfl
@[simp] theorem setHi_suNxt (v : Word) : (setHi s v).suNxt = s.suNxt := rfl
@[simp] theorem setHi_ap (v : Word) : (setHi s v).ap = s.ap := rfl
@[simp] theorem setHi_ma (v : Word) : (setHi s v).ma = s.ma := rfl
@[simp] theorem setHi_hi (v : Word) : (setHi s v).hi = v := rfl
@[simp] theorem setHi_lo (v : Word) : (setHi s v).lo = s.lo := rfl
@[simp] theorem setHi_db (v : Word) : (setHi s v).db = s.db := rfl
@[simp] theorem setHi_mem (v : Word) : (setHi s v).mem = s.mem := rfl
@[simp] theorem setHi_memDomain (v : Word) : (setHi s v).memDomain = s.memDomain := rfl
@[simp] theorem setHi_codeDomain (v : Word) : (setHi s v).codeDomain = s.codeDomain := rfl
@[simp] theorem setHi_supWords (v : Word) : (setHi s v).supWords = s.supWords := rfl
@[simp] theorem setHi_ldPrev (v : Word) : (setHi s v).ldPrev = s.ldPrev := rfl
@[simp] theorem setHi_jd2Prev (v : Word) : (setHi s v).jd2Prev = s.jd2Prev := rfl
@[simp] theorem setHi_ldsPrev (v : Word) : (setHi s v).ldsPrev = s.ldsPrev := rfl
@[simp] theorem setHi_draws (v : Word) : (setHi s v).draws = s.draws := rfl
@[simp] theorem memAddr_setHi (v : Word) (a : Word) : memAddr (setHi s v) a = memAddr s a := rfl
@[simp] theorem codeAddr_setHi (v : Word) (a : Word) : codeAddr (setHi s v) a = codeAddr s a := rfl

/-! ### `setLo` -/

@[simp] theorem reg_setLo (v : Word) (r : Reg) : reg (setLo s v) r = reg s r := rfl
@[simp] theorem setLo_regs (v : Word) : (setLo s v).regs = s.regs := rfl
@[simp] theorem setLo_pc0 (v : Word) : (setLo s v).pc0 = s.pc0 := rfl
@[simp] theorem setLo_pc1 (v : Word) : (setLo s v).pc1 = s.pc1 := rfl
@[simp] theorem setLo_pc2 (v : Word) : (setLo s v).pc2 = s.pc2 := rfl
@[simp] theorem setLo_pcm (v : Word) : (setLo s v).pcm = s.pcm := rfl
@[simp] theorem setLo_pcp1 (v : Word) : (setLo s v).pcp1 = s.pcp1 := rfl
@[simp] theorem setLo_mar (v : Word) : (setLo s v).mar = s.mar := rfl
@[simp] theorem setLo_disp (v : Word) : (setLo s v).disp = s.disp := rfl
@[simp] theorem setLo_suReg (v : Word) : (setLo s v).suReg = s.suReg := rfl
@[simp] theorem setLo_suCur (v : Word) : (setLo s v).suCur = s.suCur := rfl
@[simp] theorem setLo_suNxt (v : Word) : (setLo s v).suNxt = s.suNxt := rfl
@[simp] theorem setLo_ap (v : Word) : (setLo s v).ap = s.ap := rfl
@[simp] theorem setLo_ma (v : Word) : (setLo s v).ma = s.ma := rfl
@[simp] theorem setLo_hi (v : Word) : (setLo s v).hi = s.hi := rfl
@[simp] theorem setLo_lo (v : Word) : (setLo s v).lo = v := rfl
@[simp] theorem setLo_db (v : Word) : (setLo s v).db = s.db := rfl
@[simp] theorem setLo_mem (v : Word) : (setLo s v).mem = s.mem := rfl
@[simp] theorem setLo_memDomain (v : Word) : (setLo s v).memDomain = s.memDomain := rfl
@[simp] theorem setLo_codeDomain (v : Word) : (setLo s v).codeDomain = s.codeDomain := rfl
@[simp] theorem setLo_supWords (v : Word) : (setLo s v).supWords = s.supWords := rfl
@[simp] theorem setLo_ldPrev (v : Word) : (setLo s v).ldPrev = s.ldPrev := rfl
@[simp] theorem setLo_jd2Prev (v : Word) : (setLo s v).jd2Prev = s.jd2Prev := rfl
@[simp] theorem setLo_ldsPrev (v : Word) : (setLo s v).ldsPrev = s.ldsPrev := rfl
@[simp] theorem setLo_draws (v : Word) : (setLo s v).draws = s.draws := rfl
@[simp] theorem memAddr_setLo (v : Word) (a : Word) : memAddr (setLo s v) a = memAddr s a := rfl
@[simp] theorem codeAddr_setLo (v : Word) (a : Word) : codeAddr (setLo s v) a = codeAddr s a := rfl

/-! ### `setMulDiv` -/

@[simp] theorem reg_setMulDiv (x : MulDiv) (r : Reg) : reg (setMulDiv s x) r = reg s r := rfl
@[simp] theorem setMulDiv_regs (r : MulDiv) : (setMulDiv s r).regs = s.regs := rfl
@[simp] theorem setMulDiv_pc0 (r : MulDiv) : (setMulDiv s r).pc0 = s.pc0 := rfl
@[simp] theorem setMulDiv_pc1 (r : MulDiv) : (setMulDiv s r).pc1 = s.pc1 := rfl
@[simp] theorem setMulDiv_pc2 (r : MulDiv) : (setMulDiv s r).pc2 = s.pc2 := rfl
@[simp] theorem setMulDiv_pcm (r : MulDiv) : (setMulDiv s r).pcm = s.pcm := rfl
@[simp] theorem setMulDiv_pcp1 (r : MulDiv) : (setMulDiv s r).pcp1 = s.pcp1 := rfl
@[simp] theorem setMulDiv_mar (r : MulDiv) : (setMulDiv s r).mar = s.mar := rfl
@[simp] theorem setMulDiv_disp (r : MulDiv) : (setMulDiv s r).disp = s.disp := rfl
@[simp] theorem setMulDiv_suReg (r : MulDiv) : (setMulDiv s r).suReg = s.suReg := rfl
@[simp] theorem setMulDiv_suCur (r : MulDiv) : (setMulDiv s r).suCur = s.suCur := rfl
@[simp] theorem setMulDiv_suNxt (r : MulDiv) : (setMulDiv s r).suNxt = s.suNxt := rfl
@[simp] theorem setMulDiv_ap (r : MulDiv) : (setMulDiv s r).ap = s.ap := rfl
@[simp] theorem setMulDiv_ma (r : MulDiv) : (setMulDiv s r).ma = s.ma := rfl
@[simp] theorem setMulDiv_hi (r : MulDiv) : (setMulDiv s r).hi = r.hi := rfl
@[simp] theorem setMulDiv_lo (r : MulDiv) : (setMulDiv s r).lo = r.lo := rfl
@[simp] theorem setMulDiv_db (r : MulDiv) : (setMulDiv s r).db = r.db := rfl
@[simp] theorem setMulDiv_mem (r : MulDiv) : (setMulDiv s r).mem = s.mem := rfl
@[simp] theorem setMulDiv_memDomain (r : MulDiv) : (setMulDiv s r).memDomain = s.memDomain := rfl
@[simp] theorem setMulDiv_codeDomain (r : MulDiv) : (setMulDiv s r).codeDomain = s.codeDomain := rfl
@[simp] theorem setMulDiv_supWords (r : MulDiv) : (setMulDiv s r).supWords = s.supWords := rfl
@[simp] theorem setMulDiv_ldPrev (r : MulDiv) : (setMulDiv s r).ldPrev = s.ldPrev := rfl
@[simp] theorem setMulDiv_jd2Prev (r : MulDiv) : (setMulDiv s r).jd2Prev = s.jd2Prev := rfl
@[simp] theorem setMulDiv_ldsPrev (r : MulDiv) : (setMulDiv s r).ldsPrev = s.ldsPrev := rfl
@[simp] theorem setMulDiv_draws (r : MulDiv) : (setMulDiv s r).draws = s.draws := rfl
@[simp] theorem memAddr_setMulDiv (r : MulDiv) (a : Word) : memAddr (setMulDiv s r) a = memAddr s a := rfl
@[simp] theorem codeAddr_setMulDiv (r : MulDiv) (a : Word) : codeAddr (setMulDiv s r) a = codeAddr s a := rfl

/-! ### `setMem` -/

@[simp] theorem reg_setMem (m : Memory) (r : Reg) : reg (setMem s m) r = reg s r := rfl
@[simp] theorem setMem_regs (m : Memory) : (setMem s m).regs = s.regs := rfl
@[simp] theorem setMem_pc0 (m : Memory) : (setMem s m).pc0 = s.pc0 := rfl
@[simp] theorem setMem_pc1 (m : Memory) : (setMem s m).pc1 = s.pc1 := rfl
@[simp] theorem setMem_pc2 (m : Memory) : (setMem s m).pc2 = s.pc2 := rfl
@[simp] theorem setMem_pcm (m : Memory) : (setMem s m).pcm = s.pcm := rfl
@[simp] theorem setMem_pcp1 (m : Memory) : (setMem s m).pcp1 = s.pcp1 := rfl
@[simp] theorem setMem_mar (m : Memory) : (setMem s m).mar = s.mar := rfl
@[simp] theorem setMem_disp (m : Memory) : (setMem s m).disp = s.disp := rfl
@[simp] theorem setMem_suReg (m : Memory) : (setMem s m).suReg = s.suReg := rfl
@[simp] theorem setMem_suCur (m : Memory) : (setMem s m).suCur = s.suCur := rfl
@[simp] theorem setMem_suNxt (m : Memory) : (setMem s m).suNxt = s.suNxt := rfl
@[simp] theorem setMem_ap (m : Memory) : (setMem s m).ap = s.ap := rfl
@[simp] theorem setMem_ma (m : Memory) : (setMem s m).ma = s.ma := rfl
@[simp] theorem setMem_hi (m : Memory) : (setMem s m).hi = s.hi := rfl
@[simp] theorem setMem_lo (m : Memory) : (setMem s m).lo = s.lo := rfl
@[simp] theorem setMem_db (m : Memory) : (setMem s m).db = s.db := rfl
@[simp] theorem setMem_mem (m : Memory) : (setMem s m).mem = m := rfl
@[simp] theorem setMem_memDomain (m : Memory) : (setMem s m).memDomain = s.memDomain := rfl
@[simp] theorem setMem_codeDomain (m : Memory) : (setMem s m).codeDomain = s.codeDomain := rfl
@[simp] theorem setMem_supWords (m : Memory) : (setMem s m).supWords = s.supWords := rfl
@[simp] theorem setMem_ldPrev (m : Memory) : (setMem s m).ldPrev = s.ldPrev := rfl
@[simp] theorem setMem_jd2Prev (m : Memory) : (setMem s m).jd2Prev = s.jd2Prev := rfl
@[simp] theorem setMem_ldsPrev (m : Memory) : (setMem s m).ldsPrev = s.ldsPrev := rfl
@[simp] theorem setMem_draws (m : Memory) : (setMem s m).draws = s.draws := rfl
@[simp] theorem memAddr_setMem (m : Memory) (a : Word) : memAddr (setMem s m) a = memAddr s a := rfl
@[simp] theorem codeAddr_setMem (m : Memory) (a : Word) : codeAddr (setMem s m) a = codeAddr s a := rfl

/-! ### `advance` -/

@[simp] theorem reg_advance (r : Reg) : reg (advance s) r = reg s r := rfl
@[simp] theorem advance_regs : (advance s).regs = s.regs := rfl
@[simp] theorem advance_pc0 : (advance s).pc0 = s.pc1 := rfl
@[simp] theorem advance_pc1 : (advance s).pc1 = s.pc2 := rfl
@[simp] theorem advance_pc2 : (advance s).pc2 = s.pc2 + 1 := rfl
@[simp] theorem advance_pcm : (advance s).pcm = s.pc0 := rfl
@[simp] theorem advance_pcp1 : (advance s).pcp1 = s.pcp1 := rfl
@[simp] theorem advance_mar : (advance s).mar = s.mar := rfl
@[simp] theorem advance_disp : (advance s).disp = s.disp := rfl
@[simp] theorem advance_suReg : (advance s).suReg = s.suReg := rfl
@[simp] theorem advance_suCur : (advance s).suCur = s.suNxt := rfl
@[simp] theorem advance_suNxt : (advance s).suNxt = s.suNxt := rfl
@[simp] theorem advance_ap : (advance s).ap = s.ap := rfl
@[simp] theorem advance_ma : (advance s).ma = s.ma := rfl
@[simp] theorem advance_hi : (advance s).hi = s.hi := rfl
@[simp] theorem advance_lo : (advance s).lo = s.lo := rfl
@[simp] theorem advance_db : (advance s).db = s.db := rfl
@[simp] theorem advance_mem : (advance s).mem = s.mem := rfl
@[simp] theorem advance_memDomain : (advance s).memDomain = s.memDomain := rfl
@[simp] theorem advance_codeDomain : (advance s).codeDomain = s.codeDomain := rfl
@[simp] theorem advance_supWords : (advance s).supWords = s.supWords := rfl
@[simp] theorem advance_ldPrev : (advance s).ldPrev = none := rfl
@[simp] theorem advance_jd2Prev : (advance s).jd2Prev = false := rfl
@[simp] theorem advance_ldsPrev : (advance s).ldsPrev = false := rfl
@[simp] theorem advance_draws : (advance s).draws = s.draws := rfl
@[simp] theorem memAddr_advance (a : Word) : memAddr (advance s) a = memAddr s a := rfl
@[simp] theorem codeAddr_advance (a : Word) : codeAddr (advance s) a = codeAddr s a := rfl

/-! ### `jumpD1` -/

@[simp] theorem reg_jumpD1 (v : Word) (r : Reg) : reg (jumpD1 s v) r = reg s r := rfl
@[simp] theorem jumpD1_regs (v : Word) : (jumpD1 s v).regs = s.regs := rfl
@[simp] theorem jumpD1_pc0 (v : Word) : (jumpD1 s v).pc0 = s.pc0 := rfl
@[simp] theorem jumpD1_pc1 (v : Word) : (jumpD1 s v).pc1 = v := rfl
@[simp] theorem jumpD1_pc2 (v : Word) : (jumpD1 s v).pc2 = v + 1 := rfl
@[simp] theorem jumpD1_pcm (v : Word) : (jumpD1 s v).pcm = s.pcm := rfl
@[simp] theorem jumpD1_pcp1 (v : Word) : (jumpD1 s v).pcp1 = s.pcp1 := rfl
@[simp] theorem jumpD1_mar (v : Word) : (jumpD1 s v).mar = s.mar := rfl
@[simp] theorem jumpD1_disp (v : Word) : (jumpD1 s v).disp = s.disp := rfl
@[simp] theorem jumpD1_suReg (v : Word) : (jumpD1 s v).suReg = s.suReg := rfl
@[simp] theorem jumpD1_suCur (v : Word) : (jumpD1 s v).suCur = s.suCur := rfl
@[simp] theorem jumpD1_suNxt (v : Word) : (jumpD1 s v).suNxt = s.suNxt := rfl
@[simp] theorem jumpD1_ap (v : Word) : (jumpD1 s v).ap = s.ap := rfl
@[simp] theorem jumpD1_ma (v : Word) : (jumpD1 s v).ma = s.ma := rfl
@[simp] theorem jumpD1_hi (v : Word) : (jumpD1 s v).hi = s.hi := rfl
@[simp] theorem jumpD1_lo (v : Word) : (jumpD1 s v).lo = s.lo := rfl
@[simp] theorem jumpD1_db (v : Word) : (jumpD1 s v).db = s.db := rfl
@[simp] theorem jumpD1_mem (v : Word) : (jumpD1 s v).mem = s.mem := rfl
@[simp] theorem jumpD1_memDomain (v : Word) : (jumpD1 s v).memDomain = s.memDomain := rfl
@[simp] theorem jumpD1_codeDomain (v : Word) : (jumpD1 s v).codeDomain = s.codeDomain := rfl
@[simp] theorem jumpD1_supWords (v : Word) : (jumpD1 s v).supWords = s.supWords := rfl
@[simp] theorem jumpD1_ldPrev (v : Word) : (jumpD1 s v).ldPrev = s.ldPrev := rfl
@[simp] theorem jumpD1_jd2Prev (v : Word) : (jumpD1 s v).jd2Prev = s.jd2Prev := rfl
@[simp] theorem jumpD1_ldsPrev (v : Word) : (jumpD1 s v).ldsPrev = s.ldsPrev := rfl
@[simp] theorem jumpD1_draws (v : Word) : (jumpD1 s v).draws = s.draws := rfl
@[simp] theorem memAddr_jumpD1 (v : Word) (a : Word) : memAddr (jumpD1 s v) a = memAddr s a := rfl
@[simp] theorem codeAddr_jumpD1 (v : Word) (a : Word) : codeAddr (jumpD1 s v) a = codeAddr s a := rfl

/-! ### `jumpD2` -/

@[simp] theorem reg_jumpD2 (v : Word) (r : Reg) : reg (jumpD2 s v) r = reg s r := rfl
@[simp] theorem jumpD2_regs (v : Word) : (jumpD2 s v).regs = s.regs := rfl
@[simp] theorem jumpD2_pc0 (v : Word) : (jumpD2 s v).pc0 = s.pc0 := rfl
@[simp] theorem jumpD2_pc1 (v : Word) : (jumpD2 s v).pc1 = s.pc1 := rfl
@[simp] theorem jumpD2_pc2 (v : Word) : (jumpD2 s v).pc2 = v := rfl
@[simp] theorem jumpD2_pcm (v : Word) : (jumpD2 s v).pcm = s.pcm := rfl
@[simp] theorem jumpD2_pcp1 (v : Word) : (jumpD2 s v).pcp1 = s.pcp1 := rfl
@[simp] theorem jumpD2_mar (v : Word) : (jumpD2 s v).mar = s.mar := rfl
@[simp] theorem jumpD2_disp (v : Word) : (jumpD2 s v).disp = s.disp := rfl
@[simp] theorem jumpD2_suReg (v : Word) : (jumpD2 s v).suReg = s.suReg := rfl
@[simp] theorem jumpD2_suCur (v : Word) : (jumpD2 s v).suCur = s.suCur := rfl
@[simp] theorem jumpD2_suNxt (v : Word) : (jumpD2 s v).suNxt = s.suNxt := rfl
@[simp] theorem jumpD2_ap (v : Word) : (jumpD2 s v).ap = s.ap := rfl
@[simp] theorem jumpD2_ma (v : Word) : (jumpD2 s v).ma = s.ma := rfl
@[simp] theorem jumpD2_hi (v : Word) : (jumpD2 s v).hi = s.hi := rfl
@[simp] theorem jumpD2_lo (v : Word) : (jumpD2 s v).lo = s.lo := rfl
@[simp] theorem jumpD2_db (v : Word) : (jumpD2 s v).db = s.db := rfl
@[simp] theorem jumpD2_mem (v : Word) : (jumpD2 s v).mem = s.mem := rfl
@[simp] theorem jumpD2_memDomain (v : Word) : (jumpD2 s v).memDomain = s.memDomain := rfl
@[simp] theorem jumpD2_codeDomain (v : Word) : (jumpD2 s v).codeDomain = s.codeDomain := rfl
@[simp] theorem jumpD2_supWords (v : Word) : (jumpD2 s v).supWords = s.supWords := rfl
@[simp] theorem jumpD2_ldPrev (v : Word) : (jumpD2 s v).ldPrev = s.ldPrev := rfl
@[simp] theorem jumpD2_jd2Prev (v : Word) : (jumpD2 s v).jd2Prev = true := rfl
@[simp] theorem jumpD2_ldsPrev (v : Word) : (jumpD2 s v).ldsPrev = s.ldsPrev := rfl
@[simp] theorem jumpD2_draws (v : Word) : (jumpD2 s v).draws = s.draws := rfl
@[simp] theorem memAddr_jumpD2 (v : Word) (a : Word) : memAddr (jumpD2 s v) a = memAddr s a := rfl
@[simp] theorem codeAddr_jumpD2 (v : Word) (a : Word) : codeAddr (jumpD2 s v) a = codeAddr s a := rfl

/-! ### `setTrapCode` -/

@[simp] theorem reg_setTrapCode (v : Word) (r : Reg) : reg (setTrapCode s v) r = reg s r := rfl
@[simp] theorem setTrapCode_regs (v : Word) : (setTrapCode s v).regs = s.regs := rfl
@[simp] theorem setTrapCode_pc0 (v : Word) : (setTrapCode s v).pc0 = s.pc0 := rfl
@[simp] theorem setTrapCode_pc1 (v : Word) : (setTrapCode s v).pc1 = s.pc1 := rfl
@[simp] theorem setTrapCode_pc2 (v : Word) : (setTrapCode s v).pc2 = s.pc2 := rfl
@[simp] theorem setTrapCode_pcm (v : Word) : (setTrapCode s v).pcm = s.pcm := rfl
@[simp] theorem setTrapCode_pcp1 (v : Word) : (setTrapCode s v).pcp1 = s.pcp1 := rfl
@[simp] theorem setTrapCode_mar (v : Word) : (setTrapCode s v).mar = s.mar := rfl
@[simp] theorem setTrapCode_disp (v : Word) : (setTrapCode s v).disp = s.disp := rfl
@[simp] theorem setTrapCode_suReg (v : Word) : (setTrapCode s v).suReg = (s.suReg &&& ~~~trapCodeMask) ||| ((v.extractLsb' 0 12).setWidth 32 <<< 1) := rfl
@[simp] theorem setTrapCode_suCur (v : Word) : (setTrapCode s v).suCur = s.suCur := rfl
@[simp] theorem setTrapCode_suNxt (v : Word) : (setTrapCode s v).suNxt = s.suNxt := rfl
@[simp] theorem setTrapCode_ap (v : Word) : (setTrapCode s v).ap = s.ap := rfl
@[simp] theorem setTrapCode_ma (v : Word) : (setTrapCode s v).ma = s.ma := rfl
@[simp] theorem setTrapCode_hi (v : Word) : (setTrapCode s v).hi = s.hi := rfl
@[simp] theorem setTrapCode_lo (v : Word) : (setTrapCode s v).lo = s.lo := rfl
@[simp] theorem setTrapCode_db (v : Word) : (setTrapCode s v).db = s.db := rfl
@[simp] theorem setTrapCode_mem (v : Word) : (setTrapCode s v).mem = s.mem := rfl
@[simp] theorem setTrapCode_memDomain (v : Word) : (setTrapCode s v).memDomain = s.memDomain := rfl
@[simp] theorem setTrapCode_codeDomain (v : Word) : (setTrapCode s v).codeDomain = s.codeDomain := rfl
@[simp] theorem setTrapCode_supWords (v : Word) : (setTrapCode s v).supWords = s.supWords := rfl
@[simp] theorem setTrapCode_ldPrev (v : Word) : (setTrapCode s v).ldPrev = s.ldPrev := rfl
@[simp] theorem setTrapCode_jd2Prev (v : Word) : (setTrapCode s v).jd2Prev = s.jd2Prev := rfl
@[simp] theorem setTrapCode_ldsPrev (v : Word) : (setTrapCode s v).ldsPrev = s.ldsPrev := rfl
@[simp] theorem setTrapCode_draws (v : Word) : (setTrapCode s v).draws = s.draws := rfl
@[simp] theorem memAddr_setTrapCode (v : Word) (a : Word) : memAddr (setTrapCode s v) a = memAddr s a := rfl
@[simp] theorem codeAddr_setTrapCode (v : Word) (a : Word) : codeAddr (setTrapCode s v) a = codeAddr s a := rfl

/-! ### `takeTrap` -/

@[simp] theorem reg_takeTrap (r : Reg) : reg (takeTrap s) r = reg s r := rfl
@[simp] theorem takeTrap_regs : (takeTrap s).regs = s.regs := rfl
@[simp] theorem takeTrap_pc0 : (takeTrap s).pc0 = 0 := rfl
@[simp] theorem takeTrap_pc1 : (takeTrap s).pc1 = 1 := rfl
@[simp] theorem takeTrap_pc2 : (takeTrap s).pc2 = 2 := rfl
@[simp] theorem takeTrap_pcm : (takeTrap s).pcm = s.pc0 := rfl
@[simp] theorem takeTrap_pcp1 : (takeTrap s).pcp1 = s.pcp1 := rfl
@[simp] theorem takeTrap_mar : (takeTrap s).mar = s.mar := rfl
@[simp] theorem takeTrap_disp : (takeTrap s).disp = s.disp := rfl
@[simp] theorem takeTrap_suReg : (takeTrap s).suReg = (s.suReg &&& trapCodeMask) ||| (Config.freeWord s.draws &&& ~~~trapCodeMask) := rfl
@[simp] theorem takeTrap_suCur : (takeTrap s).suCur = .trapped := rfl
@[simp] theorem takeTrap_suNxt : (takeTrap s).suNxt = .trapped := rfl
@[simp] theorem takeTrap_ap : (takeTrap s).ap = s.ap := rfl
@[simp] theorem takeTrap_ma : (takeTrap s).ma = s.ma := rfl
@[simp] theorem takeTrap_hi : (takeTrap s).hi = s.hi := rfl
@[simp] theorem takeTrap_lo : (takeTrap s).lo = s.lo := rfl
@[simp] theorem takeTrap_db : (takeTrap s).db = s.db := rfl
@[simp] theorem takeTrap_mem : (takeTrap s).mem = s.mem := rfl
@[simp] theorem takeTrap_memDomain : (takeTrap s).memDomain = s.memDomain := rfl
@[simp] theorem takeTrap_codeDomain : (takeTrap s).codeDomain = s.codeDomain := rfl
@[simp] theorem takeTrap_supWords : (takeTrap s).supWords = s.supWords := rfl
@[simp] theorem takeTrap_ldPrev : (takeTrap s).ldPrev = s.ldPrev := rfl
@[simp] theorem takeTrap_jd2Prev : (takeTrap s).jd2Prev = s.jd2Prev := rfl
@[simp] theorem takeTrap_ldsPrev : (takeTrap s).ldsPrev = s.ldsPrev := rfl
@[simp] theorem takeTrap_draws : (takeTrap s).draws = s.draws + 1 := rfl
@[simp] theorem memAddr_takeTrap (a : Word) : memAddr (takeTrap s) a = memAddr s a := rfl
@[simp] theorem codeAddr_takeTrap (a : Word) : codeAddr (takeTrap s) a = codeAddr s a := rfl

/-! ### `enableSu` -/

@[simp] theorem reg_enableSu (v : Word) (r : Reg) : reg (enableSu s v) r = reg s r := rfl
@[simp] theorem enableSu_regs (v : Word) : (enableSu s v).regs = s.regs := rfl
@[simp] theorem enableSu_pc0 (v : Word) : (enableSu s v).pc0 = s.pc0 := rfl
@[simp] theorem enableSu_pc1 (v : Word) : (enableSu s v).pc1 = s.pc1 := rfl
@[simp] theorem enableSu_pc2 (v : Word) : (enableSu s v).pc2 = s.pc2 := rfl
@[simp] theorem enableSu_pcm (v : Word) : (enableSu s v).pcm = s.pcm := rfl
@[simp] theorem enableSu_pcp1 (v : Word) : (enableSu s v).pcp1 = s.pcp1 := rfl
@[simp] theorem enableSu_mar (v : Word) : (enableSu s v).mar = s.mar := rfl
@[simp] theorem enableSu_disp (v : Word) : (enableSu s v).disp = s.disp := rfl
@[simp] theorem enableSu_suReg (v : Word) : (enableSu s v).suReg = s.suReg := rfl
@[simp] theorem enableSu_suCur (v : Word) : (enableSu s v).suCur = s.suCur := rfl
@[simp] theorem enableSu_suNxt (v : Word) : (enableSu s v).suNxt = .enabled v := rfl
@[simp] theorem enableSu_ap (v : Word) : (enableSu s v).ap = s.ap := rfl
@[simp] theorem enableSu_ma (v : Word) : (enableSu s v).ma = s.ma := rfl
@[simp] theorem enableSu_hi (v : Word) : (enableSu s v).hi = s.hi := rfl
@[simp] theorem enableSu_lo (v : Word) : (enableSu s v).lo = s.lo := rfl
@[simp] theorem enableSu_db (v : Word) : (enableSu s v).db = s.db := rfl
@[simp] theorem enableSu_mem (v : Word) : (enableSu s v).mem = s.mem := rfl
@[simp] theorem enableSu_memDomain (v : Word) : (enableSu s v).memDomain = s.memDomain := rfl
@[simp] theorem enableSu_codeDomain (v : Word) : (enableSu s v).codeDomain = s.codeDomain := rfl
@[simp] theorem enableSu_supWords (v : Word) : (enableSu s v).supWords = s.supWords := rfl
@[simp] theorem enableSu_ldPrev (v : Word) : (enableSu s v).ldPrev = s.ldPrev := rfl
@[simp] theorem enableSu_jd2Prev (v : Word) : (enableSu s v).jd2Prev = s.jd2Prev := rfl
@[simp] theorem enableSu_ldsPrev (v : Word) : (enableSu s v).ldsPrev = s.ldsPrev := rfl
@[simp] theorem enableSu_draws (v : Word) : (enableSu s v).draws = s.draws := rfl
@[simp] theorem memAddr_enableSu (v : Word) (a : Word) : memAddr (enableSu s v) a = memAddr s a := rfl
@[simp] theorem codeAddr_enableSu (v : Word) (a : Word) : codeAddr (enableSu s v) a = codeAddr s a := rfl

/-! ### `loadReg` -/

@[simp] theorem loadReg_regs (n : Reg) (v : Word) : (loadReg s n v).regs = s.regs.set n.toNat v n.isLt := rfl
@[simp] theorem loadReg_pc0 (n : Reg) (v : Word) : (loadReg s n v).pc0 = s.pc0 := rfl
@[simp] theorem loadReg_pc1 (n : Reg) (v : Word) : (loadReg s n v).pc1 = s.pc1 := rfl
@[simp] theorem loadReg_pc2 (n : Reg) (v : Word) : (loadReg s n v).pc2 = s.pc2 := rfl
@[simp] theorem loadReg_pcm (n : Reg) (v : Word) : (loadReg s n v).pcm = s.pcm := rfl
@[simp] theorem loadReg_pcp1 (n : Reg) (v : Word) : (loadReg s n v).pcp1 = s.pcp1 := rfl
@[simp] theorem loadReg_mar (n : Reg) (v : Word) : (loadReg s n v).mar = s.mar := rfl
@[simp] theorem loadReg_disp (n : Reg) (v : Word) : (loadReg s n v).disp = s.disp := rfl
@[simp] theorem loadReg_suReg (n : Reg) (v : Word) : (loadReg s n v).suReg = s.suReg := rfl
@[simp] theorem loadReg_suCur (n : Reg) (v : Word) : (loadReg s n v).suCur = s.suCur := rfl
@[simp] theorem loadReg_suNxt (n : Reg) (v : Word) : (loadReg s n v).suNxt = s.suNxt := rfl
@[simp] theorem loadReg_ap (n : Reg) (v : Word) : (loadReg s n v).ap = s.ap := rfl
@[simp] theorem loadReg_ma (n : Reg) (v : Word) : (loadReg s n v).ma = s.ma := rfl
@[simp] theorem loadReg_hi (n : Reg) (v : Word) : (loadReg s n v).hi = s.hi := rfl
@[simp] theorem loadReg_lo (n : Reg) (v : Word) : (loadReg s n v).lo = s.lo := rfl
@[simp] theorem loadReg_db (n : Reg) (v : Word) : (loadReg s n v).db = s.db := rfl
@[simp] theorem loadReg_mem (n : Reg) (v : Word) : (loadReg s n v).mem = s.mem := rfl
@[simp] theorem loadReg_memDomain (n : Reg) (v : Word) : (loadReg s n v).memDomain = s.memDomain := rfl
@[simp] theorem loadReg_codeDomain (n : Reg) (v : Word) : (loadReg s n v).codeDomain = s.codeDomain := rfl
@[simp] theorem loadReg_supWords (n : Reg) (v : Word) : (loadReg s n v).supWords = s.supWords := rfl
@[simp] theorem loadReg_ldPrev (n : Reg) (v : Word) : (loadReg s n v).ldPrev = some n := rfl
@[simp] theorem loadReg_jd2Prev (n : Reg) (v : Word) : (loadReg s n v).jd2Prev = s.jd2Prev := rfl
@[simp] theorem loadReg_ldsPrev (n : Reg) (v : Word) : (loadReg s n v).ldsPrev = s.ldsPrev := rfl
@[simp] theorem loadReg_draws (n : Reg) (v : Word) : (loadReg s n v).draws = s.draws := rfl
@[simp] theorem memAddr_loadReg (n : Reg) (v : Word) (a : Word) : memAddr (loadReg s n v) a = memAddr s a := rfl
@[simp] theorem codeAddr_loadReg (n : Reg) (v : Word) (a : Word) : codeAddr (loadReg s n v) a = codeAddr s a := rfl

/-! ### `loadSu` -/

@[simp] theorem reg_loadSu (v : Word) (r : Reg) : reg (loadSu s v) r = reg s r := rfl
@[simp] theorem loadSu_regs (v : Word) : (loadSu s v).regs = s.regs := rfl
@[simp] theorem loadSu_pc0 (v : Word) : (loadSu s v).pc0 = s.pc0 := rfl
@[simp] theorem loadSu_pc1 (v : Word) : (loadSu s v).pc1 = s.pc1 := rfl
@[simp] theorem loadSu_pc2 (v : Word) : (loadSu s v).pc2 = s.pc2 := rfl
@[simp] theorem loadSu_pcm (v : Word) : (loadSu s v).pcm = s.pcm := rfl
@[simp] theorem loadSu_pcp1 (v : Word) : (loadSu s v).pcp1 = s.pcp1 := rfl
@[simp] theorem loadSu_mar (v : Word) : (loadSu s v).mar = s.mar := rfl
@[simp] theorem loadSu_disp (v : Word) : (loadSu s v).disp = s.disp := rfl
@[simp] theorem loadSu_suReg (v : Word) : (loadSu s v).suReg = v := rfl
@[simp] theorem loadSu_suCur (v : Word) : (loadSu s v).suCur = s.suCur := rfl
@[simp] theorem loadSu_suNxt (v : Word) : (loadSu s v).suNxt = s.suNxt := rfl
@[simp] theorem loadSu_ap (v : Word) : (loadSu s v).ap = s.ap := rfl
@[simp] theorem loadSu_ma (v : Word) : (loadSu s v).ma = s.ma := rfl
@[simp] theorem loadSu_hi (v : Word) : (loadSu s v).hi = s.hi := rfl
@[simp] theorem loadSu_lo (v : Word) : (loadSu s v).lo = s.lo := rfl
@[simp] theorem loadSu_db (v : Word) : (loadSu s v).db = s.db := rfl
@[simp] theorem loadSu_mem (v : Word) : (loadSu s v).mem = s.mem := rfl
@[simp] theorem loadSu_memDomain (v : Word) : (loadSu s v).memDomain = s.memDomain := rfl
@[simp] theorem loadSu_codeDomain (v : Word) : (loadSu s v).codeDomain = s.codeDomain := rfl
@[simp] theorem loadSu_supWords (v : Word) : (loadSu s v).supWords = s.supWords := rfl
@[simp] theorem loadSu_ldPrev (v : Word) : (loadSu s v).ldPrev = s.ldPrev := rfl
@[simp] theorem loadSu_jd2Prev (v : Word) : (loadSu s v).jd2Prev = s.jd2Prev := rfl
@[simp] theorem loadSu_ldsPrev (v : Word) : (loadSu s v).ldsPrev = true := rfl
@[simp] theorem loadSu_draws (v : Word) : (loadSu s v).draws = s.draws := rfl
@[simp] theorem memAddr_loadSu (v : Word) (a : Word) : memAddr (loadSu s v) a = memAddr s a := rfl
@[simp] theorem codeAddr_loadSu (v : Word) (a : Word) : codeAddr (loadSu s v) a = codeAddr s a := rfl

end Sys2Proof.Machine
end

