-- ==== Sys2Proof/Laws/Ops.lean ====
section
/-! SUPPORT. One lemma for each shared operation that says once what it can do: when it answers a next
state, and which. Later proofs cite these instead of unfolding the operation. -/

namespace Sys2Proof.Machine

/-! ### Sequencing of outcomes -/

@[simp] theorem andThen_next {α β : Type} (a : α) (f : α → Host.Outcome β Fault Refusal) :
    andThen (.next a) f = f a := rfl

@[simp] theorem andThen_fault {α β : Type} (r : Fault) (f : α → Host.Outcome β Fault Refusal) :
    andThen (.fault r) f = .fault r := rfl

@[simp] theorem andThen_refused {α β : Type} (r : Refusal) (f : α → Host.Outcome β Fault Refusal) :
    andThen (.refused r) f = .refused r := rfl

theorem andThen_eq_next {α β : Type} {x : Host.Outcome α Fault Refusal}
    {f : α → Host.Outcome β Fault Refusal} {b : β} :
    andThen x f = .next b ↔ ∃ a, x = .next a ∧ f a = .next b := by
  cases x <;> simp

/-! ### Memory access -/

theorem memRead_eq_next {t : State} {a v : Word} :
    memRead t a = .next v ↔ memAddr t a = true ∧ t.mem.word a = v := by
  unfold memRead
  split <;> simp_all

theorem memWrite_eq_next {t u : State} {a v : Word} :
    memWrite t a v = .next u ↔
      memAddr t a = true ∧ codeAddr t a = false ∧ setMem t (t.mem.setWord a v) = u := by
  unfold memWrite
  split
  · split <;> simp_all
  · simp_all

theorem fetch_eq_next {s : State} {w : Word} :
    fetch s = .next w ↔ codeAddr s s.pc0 = true ∧ s.mem.word s.pc0 = w := by
  unfold fetch
  split <;> simp_all

/-- A step that goes on fetched a word of the program and executed what it decodes to. -/
theorem step_eq_next {s t : State} :
    step s = .next t ↔
      codeAddr s s.pc0 = true ∧ exec (decode (s.mem.word s.pc0)) s = .next t := by
  unfold step
  rw [andThen_eq_next]
  constructor
  · rintro ⟨w, hw, h⟩
    obtain ⟨h1, rfl⟩ := fetch_eq_next.1 hw
    exact ⟨h1, h⟩
  · rintro ⟨h1, h⟩
    exact ⟨_, fetch_eq_next.2 ⟨h1, rfl⟩, h⟩

/-! ### What comes before the stages -/

theorem loadPending_eq_false {s : State} {rs : List Reg} :
    loadPending s rs = false ↔ ∀ r ∈ rs, s.ldPrev ≠ some r := by
  unfold loadPending
  cases h : s.ldPrev with
  | none => simp
  | some q =>
    simp only [decide_eq_false_iff_not, ne_eq, Option.some.injEq]
    constructor
    · rintro hq r hr rfl
      exact hq hr
    · intro hq hr
      exact hq q hr rfl

/-- An instruction goes on when no check stops it and its stages go on. -/
theorem issue_eq_next {u : Uses} {s t : State} {stages : State → Result} :
    issue u s stages = .next t ↔
      (u.privileged = true → supervisor s = true) ∧ loadPending s u.regs = false ∧
      (u.pcInOd = true → s.jd2Prev = false) ∧ u.conflict = false ∧
      stages (advance s) = .next t := by
  unfold issue
  by_cases h1 : (u.privileged && !supervisor s) = true
  · have : ¬(u.privileged = true → supervisor s = true) := by simp_all
    simp [h1, this]
  by_cases h2 : loadPending s u.regs = true
  · simp [h1, h2]
  by_cases h3 : (u.pcInOd && s.jd2Prev) = true
  · have : ¬(u.pcInOd = true → s.jd2Prev = false) := by simp_all
    simp [h1, h2, h3, this]
  by_cases h4 : u.conflict = true
  · simp [h1, h2, h3, h4]
  · have p1 : u.privileged = true → supervisor s = true := by simp_all
    have p3 : u.pcInOd = true → s.jd2Prev = false := by simp_all
    rw [if_neg h1, if_neg h2, if_neg h3, if_neg h4]
    rw [Bool.not_eq_true] at h2 h4
    exact ⟨fun h => ⟨p1, h2, p3, h4, h⟩, fun h => h.2.2.2.2⟩

/-! ### The address of a memory instruction -/

@[simp] theorem formAddress_mar (t : State) (a : Address) :
    (formAddress t a).mar = addressOf t a := by
  cases a <;> rfl

@[simp] theorem reg_formAddress (t : State) (a : Address) (r : Reg) :
    reg (formAddress t a) r = reg t r := by
  cases a <;> rfl

/-- Forming an address changes Disp and MAR only. -/
theorem formAddress_frame (t : State) (a : Address) :
    { formAddress t a with mar := t.mar, disp := t.disp } = t := by
  cases a <;> rfl

@[simp] theorem formAddress_mem (t : State) (a : Address) : (formAddress t a).mem = t.mem := by
  cases a <;> rfl

@[simp] theorem memAddr_formAddress (t : State) (a : Address) (w : Word) :
    memAddr (formAddress t a) w = memAddr t w := by
  cases a <;> rfl

@[simp] theorem codeAddr_formAddress (t : State) (a : Address) (w : Word) :
    codeAddr (formAddress t a) w = codeAddr t w := by
  cases a <;> rfl

/-! ### The pieces -/

/-- What no ALU piece changes: memory and its domains, SUreg, the setting, the scratch registers, the
instruction's own and the next address, and the bookkeeping. -/
structure PieceKeeps (t u : State) : Prop where
  mem : u.mem = t.mem
  memDomain : u.memDomain = t.memDomain
  codeDomain : u.codeDomain = t.codeDomain
  supWords : u.supWords = t.supWords
  suReg : u.suReg = t.suReg
  suCur : u.suCur = t.suCur
  suNxt : u.suNxt = t.suNxt
  mar : u.mar = t.mar
  disp : u.disp = t.disp
  pcp1 : u.pcp1 = t.pcp1
  pc0 : u.pc0 = t.pc0
  pcm : u.pcm = t.pcm
  ldPrev : u.ldPrev = t.ldPrev
  jd2Prev : u.jd2Prev = t.jd2Prev
  ldsPrev : u.ldsPrev = t.ldsPrev
  draws : u.draws = t.draws

theorem PieceKeeps.trans {t u v : State} (h : PieceKeeps t u) (k : PieceKeeps u v) :
    PieceKeeps t v :=
  ⟨k.mem.trans h.mem, k.memDomain.trans h.memDomain, k.codeDomain.trans h.codeDomain,
   k.supWords.trans h.supWords,
   k.suReg.trans h.suReg, k.suCur.trans h.suCur, k.suNxt.trans h.suNxt, k.mar.trans h.mar,
   k.disp.trans h.disp, k.pcp1.trans h.pcp1, k.pc0.trans h.pc0, k.pcm.trans h.pcm,
   k.ldPrev.trans h.ldPrev, k.jd2Prev.trans h.jd2Prev, k.ldsPrev.trans h.ldsPrev,
   k.draws.trans h.draws⟩

theorem setReg_keeps (t : State) (r : Reg) (v : Word) : PieceKeeps t (setReg t r v) := by
  constructor <;> rfl

theorem writeSpecial_keeps (t : State) (sel : DstSel) (a : Word) :
    PieceKeeps t (writeSpecial t sel a) := by
  cases sel <;> constructor <;> rfl

theorem runAlu2_keeps (p : Alu2) (t : State) : PieceKeeps t (runAlu2 p t) := by
  cases p <;> first | exact setReg_keeps _ _ _ | exact writeSpecial_keeps _ _ _

theorem runAlu3_keeps (p : Alu3) (t : State) : PieceKeeps t (runAlu3 p t) := by
  cases p <;> first | exact setReg_keeps _ _ _ | exact writeSpecial_keeps _ _ _

/-- An implicit-destination piece writes no general register (41_alu_special.md R143). -/
@[simp] theorem reg_writeSpecial (t : State) (sel : DstSel) (a : Word) (r : Reg) :
    reg (writeSpecial t sel a) r = reg t r := by
  cases sel <;> rfl

/-- An ALU2 piece writes no general register but its destination. -/
theorem reg_runAlu2_other (p : Alu2) (t : State) (r : Reg) (h : alu2Dst p ≠ some r) :
    reg (runAlu2 p t) r = reg t r := by
  cases p <;> simp_all [runAlu2, alu2Dst, reg_setReg_eq, @eq_comm _ r]

/-- An ALU3 piece writes no general register but its destination. -/
theorem reg_runAlu3_other (p : Alu3) (t : State) (r : Reg) (h : alu3Dst p ≠ some r) :
    reg (runAlu3 p t) r = reg t r := by
  cases p <;> simp_all [runAlu3, alu3Dst, reg_setReg_eq, @eq_comm _ r]

/-! ### The shared meanings -/

theorem jumpThroughMar_eq_next {t u : State} :
    jumpThroughMar t = .next u ↔ memAddr t t.mar = true ∧ jumpD2 t (t.mem.word t.mar) = u := by
  simp only [jumpThroughMar, andThen_eq_next, memRead_eq_next, Host.Outcome.next.injEq]
  constructor
  · rintro ⟨_, ⟨h, rfl⟩, rfl⟩
    exact ⟨h, rfl⟩
  · rintro ⟨h, rfl⟩
    exact ⟨_, ⟨h, rfl⟩, rfl⟩

theorem loadThroughMar_eq_next {dst : Reg} {t u : State} :
    loadThroughMar dst t = .next u ↔
      memAddr t t.mar = true ∧ loadReg t dst (t.mem.word t.mar) = u := by
  simp only [loadThroughMar, andThen_eq_next, memRead_eq_next, Host.Outcome.next.injEq]
  constructor
  · rintro ⟨_, ⟨h, rfl⟩, rfl⟩
    exact ⟨h, rfl⟩
  · rintro ⟨h, rfl⟩
    exact ⟨_, ⟨h, rfl⟩, rfl⟩

/-- An ALU23 word that goes on ran its ALU3 piece and then its ALU2 piece. -/
theorem packed_eq_next {p3 : Alu3} {p2 : Alu2} {s t : State} :
    packed p3 p2 s = .next t ↔
      (alu3Privileged p3 = true ∨ alu2Privileged p2 = true → supervisor s = true) ∧
      loadPending s (alu3Regs p3 ++ alu2Regs p2) = false ∧
      (alu3Pc p3 = true → s.jd2Prev = false) ∧
      runAlu2 p2 (runAlu3 p3 (advance s)) = t := by
  simp only [packed, issue_eq_next, Bool.or_eq_true, Host.Outcome.next.injEq, true_and]

theorem loadPlain_eq_next {w : Word} {dst : Reg} {a : Address} {s t : State} :
    loadPlain w dst a s = .next t ↔
      loadPending s (dst :: addressRegs a) = false ∧
      memAddr s (addressOf (advance s) a) = true ∧
      loadReg (formAddress (advance s) a) dst (s.mem.word (addressOf (advance s) a)) = t := by
  simp only [loadPlain, issue_eq_next, loadThroughMar_eq_next, formAddress_mar, formAddress_mem,
    memAddr_formAddress, advance_mem, memAddr_advance]
  simp

theorem loadWithAlu2_eq_next {w : Word} {dst : Reg} {a : Address} {p : Alu2} {s t : State} :
    loadWithAlu2 w dst a p s = .next t ↔
      (alu2Privileged p = true → supervisor s = true) ∧
      loadPending s (dst :: addressRegs a ++ alu2Regs p) = false ∧
      memAddr s (addressOf (advance s) a) = true ∧
      loadReg (runAlu2 p (formAddress (advance s) a)) dst
        (s.mem.word (addressOf (advance s) a)) = t := by
  have k := runAlu2_keeps p (formAddress (advance s) a)
  have hm : memAddr (runAlu2 p (formAddress (advance s) a)) = memAddr s := by
    funext w
    simp [memAddr, k.memDomain]
    cases a <;> rfl
  simp only [loadWithAlu2, issue_eq_next, loadThroughMar_eq_next, k.mar, k.mem, hm, formAddress_mar,
    formAddress_mem, advance_mem]
  simp

theorem storePlain_eq_next {w : Word} {st : Reg} {a : Address} {s t : State} :
    storePlain w st a s = .next t ↔
      loadPending s (st :: addressRegs a) = false ∧
      memAddr s (addressOf (advance s) a) = true ∧ codeAddr s (addressOf (advance s) a) = false ∧
      setMem (formAddress (advance s) a)
        (s.mem.setWord (addressOf (advance s) a) (reg s st)) = t := by
  simp only [storePlain, issue_eq_next, memWrite_eq_next, formAddress_mar, formAddress_mem,
    memAddr_formAddress, codeAddr_formAddress, reg_formAddress, advance_mem, memAddr_advance,
    codeAddr_advance, reg_advance]
  simp

theorem storeWithAlu2_eq_next {w : Word} {st : Reg} {a : Address} {p : Alu2} {s t : State} :
    storeWithAlu2 w st a p s = .next t ↔
      (alu2Privileged p = true → supervisor s = true) ∧
      loadPending s (st :: addressRegs a ++ alu2Regs p) = false ∧
      alu2Dst p ≠ some st ∧
      memAddr s (addressOf (advance s) a) = true ∧ codeAddr s (addressOf (advance s) a) = false ∧
      runAlu2 p (setMem (formAddress (advance s) a)
        (s.mem.setWord (addressOf (advance s) a) (reg s st))) = t := by
  simp only [storeWithAlu2, issue_eq_next, andThen_eq_next, memWrite_eq_next, formAddress_mar,
    formAddress_mem, memAddr_formAddress, codeAddr_formAddress, reg_formAddress, advance_mem,
    memAddr_advance, codeAddr_advance, reg_advance, storeConflict, decide_eq_false_iff_not,
    Host.Outcome.next.injEq]
  simp only [Bool.false_eq_true, false_implies, true_and]
  constructor
  · rintro ⟨h1, h2, h3, _, ⟨h4, h5, rfl⟩, h6⟩
    exact ⟨h1, h2, h3, h4, h5, h6⟩
  · rintro ⟨h1, h2, h3, h4, h5, h6⟩
    exact ⟨h1, h2, h3, _, ⟨h4, h5, rfl⟩, h6⟩

/-! ### The shared meanings of a condition's hosts -/

/-- A conditional branch that goes on has formed its destination, and jumps to it if its test holds. -/
theorem branchOn_eq_next {c : Cond} {imm : Bool} {src2 src1 : Reg} {offset : BitVec 12} {s t : State} :
    branchOn c imm src2 src1 offset s = .next t ↔
      loadPending s (src2 :: operandRegs imm src1) = false ∧ s.jd2Prev = false ∧
      (let u := setPcp1 (setDisp (advance s) (sext offset)) (s.pc1 + sext offset)
        if test c (operand s imm src1) (reg s src2) = true then jumpD1 u u.pcp1 else u) = t := by
  simp only [branchOn, issue_eq_next, Host.Outcome.next.injEq, true_and, forall_const]
  exact ⟨fun h => ⟨h.2.1, h.2.2.1, h.2.2.2⟩, fun h => ⟨nofun, h.1, h.2.1, h.2.2⟩⟩

/-- A TRAP that goes on has written its code, and takes the trap if its test holds. -/
theorem trapOn_eq_next {c : Cond} {imm : Bool} {src2 src1 : Reg} {code : BitVec 11} {bit0 : Bool}
    {s t : State} :
    trapOn c imm src2 src1 code bit0 s = .next t ↔
      loadPending s (src2 :: operandRegs imm src1) = false ∧ s.ldsPrev = false ∧
      (let u := setTrapCode (setDisp (advance s) (sext code)) (sext code)
        if test c (operand s imm src1) (reg s src2) = true then takeTrap u else u) = t := by
  simp only [trapOn, issue_eq_next, Host.Outcome.next.injEq]
  exact ⟨fun h => ⟨h.2.1, h.2.2.2.1, h.2.2.2.2⟩, fun h => ⟨nofun, h.1, nofun, h.2.1, h.2.2⟩⟩

/-- A set that goes on writes the test's result. -/
theorem setOn_eq_next {c : Cond} {imm : Bool} {dst src : Reg} {s t : State} :
    setOn c imm dst src s = .next t ↔
      loadPending s (dst :: operandRegs imm src) = false ∧
      setReg (advance s) dst (setResult (test c (operand s imm src) (reg s dst))) = t := by
  simp only [setOn, issue_eq_next, Host.Outcome.next.injEq]
  exact ⟨fun h => ⟨h.2.1, h.2.2.2.2⟩, fun h => ⟨nofun, h.1, nofun, trivial, h.2⟩⟩

/-- A memory write keeps the canonical form. -/
theorem memWrite_wf {t u : State} {a v : Word} (h : memWrite t a v = .next u)
    (hw : t.mem.wf = true) : u.mem.wf = true := by
  obtain ⟨-, -, rfl⟩ := memWrite_eq_next.1 h
  exact wf_setWord hw a v

end Sys2Proof.Machine
end

