-- ==== Sys2Proof/Laws/PerInstr.lean ====
section
/-! SUPPORT. A family of facts about every instruction as syntax, one lemma for each constructor. -/

namespace Sys2Proof.Laws.DecodedFormKeepsWord

/-- The term the decoder answers for an instruction's word stands for the same word and is its own
decoded form (42_control.md R172). -/
def Statement (i : Instr) : Prop :=
  encode (decodedForm i) = encode i ∧ decodedForm (decodedForm i) = decodedForm i

/-- A condition row and the word that carries its condition stand for the same word. -/
theorem encode_host (c : Cond) (h : CondHost) : encode (h.instr c) = encodeHost c h := by
  cases h <;> rfl

/-- A branch, a trap or a set is its own decoded form. -/
theorem decodedForm_host (c : Cond) (h : CondHost) : decodedForm (h.instr c) = h.instr c := by
  cases h <;> rfl

theorem alu23 (p3 : Alu3) (p2 : Alu2) : Statement (.alu23 p3 p2) := ⟨rfl, rfl⟩

theorem lbalu (dst base : Reg) (p : Alu2) (offset : BitVec 8) :
    Statement (.lbalu dst base p offset) := ⟨rfl, rfl⟩

theorem sbalu (st base : Reg) (p : Alu2) (offset : BitVec 8) :
    Statement (.sbalu st base p offset) := ⟨rfl, rfl⟩

theorem ldl (dst : Reg) (address : BitVec 24) : Statement (.ldl dst address) := ⟨rfl, rfl⟩

theorem lbi (dst base : Reg) (offset : BitVec 20) : Statement (.lbi dst base offset) := ⟨rfl, rfl⟩

theorem std (st : Reg) (address : BitVec 24) : Statement (.std st address) := ⟨rfl, rfl⟩

theorem sbi (st base : Reg) (offset : BitVec 20) : Statement (.sbi st base offset) := ⟨rfl, rfl⟩

theorem ldi (dst : Reg) (data : BitVec 24) : Statement (.ldi dst data) := ⟨rfl, rfl⟩

theorem libalu (dst base : Reg) (p : Alu2) (index : Reg) :
    Statement (.libalu dst base p index) := ⟨rfl, rfl⟩

theorem sibalu (st base : Reg) (p : Alu2) (index : Reg) :
    Statement (.sibalu st base p index) := ⟨rfl, rfl⟩

theorem lsbalu (dst base : Reg) (p : Alu2) (shift : BitVec 4) :
    Statement (.lsbalu dst base p shift) := ⟨rfl, rfl⟩

theorem ssbalu (st base : Reg) (p : Alu2) (shift : BitVec 4) :
    Statement (.ssbalu st base p shift) := ⟨rfl, rfl⟩

theorem jibalu (base : Reg) (p : Alu2) (offset : BitVec 8) :
    Statement (.jibalu base p offset) := ⟨rfl, rfl⟩

theorem spcalu (base : Reg) (p : Alu2) (offset : BitVec 8) :
    Statement (.spcalu base p offset) := ⟨rfl, rfl⟩

theorem jind (address : BitVec 24) : Statement (.jind address) := ⟨rfl, rfl⟩

theorem jbind (base : Reg) (offset : BitVec 20) : Statement (.jbind base offset) := ⟨rfl, rfl⟩

theorem spc (address : BitVec 24) : Statement (.spc address) := ⟨rfl, rfl⟩

theorem spcb (base : Reg) (offset : BitVec 20) : Statement (.spcb base offset) := ⟨rfl, rfl⟩

theorem jdrct (address : BitVec 24) : Statement (.jdrct address) := ⟨rfl, rfl⟩

theorem jbase (base : Reg) (offset : BitVec 20) : Statement (.jbase base offset) := ⟨rfl, rfl⟩

theorem bucnd (offset : BitVec 24) : Statement (.bucnd offset) := ⟨rfl, rfl⟩

theorem bcnd (c : Cond) (imm : Bool) (src2 src1 : Reg) (offset : BitVec 12) :
    Statement (.bcnd c imm src2 src1 offset) := ⟨rfl, rfl⟩

theorem trap (c : Cond) (imm : Bool) (src2 src1 : Reg) (code : BitVec 11) (bit0 : Bool) :
    Statement (.trap c imm src2 src1 code bit0) := ⟨rfl, rfl⟩

theorem scnd (c : Cond) (imm : Bool) (dst src : Reg) : Statement (.scnd c imm dst src) := ⟨rfl, rfl⟩

theorem lds (address : BitVec 24) : Statement (.lds address) := ⟨rfl, rfl⟩

theorem sts (address : BitVec 24) : Statement (.sts address) := ⟨rfl, rfl⟩

theorem savepc (address : BitVec 24) : Statement (.savepc address) := ⟨rfl, rfl⟩

theorem jindss (address : BitVec 24) : Statement (.jindss address) := ⟨rfl, rfl⟩

theorem illegal (word : Word) : Statement (.illegal word) := ⟨rfl, rfl⟩

theorem reserved (word : Word) : Statement (.reserved word) := ⟨rfl, rfl⟩

theorem mov3 (imm : Bool) (dst src2 src1 : Reg) : Statement (.mov3 imm dst src2 src1) := ⟨rfl, rfl⟩

theorem add3 (imm : Bool) (dst src2 src1 : Reg) : Statement (.add3 imm dst src2 src1) := ⟨rfl, rfl⟩

theorem sub3 (imm : Bool) (dst src2 src1 : Reg) : Statement (.sub3 imm dst src2 src1) := ⟨rfl, rfl⟩

theorem subr3 (imm : Bool) (dst src2 src1 : Reg) :
    Statement (.subr3 imm dst src2 src1) := ⟨rfl, rfl⟩

theorem and3 (imm : Bool) (dst src2 src1 : Reg) : Statement (.and3 imm dst src2 src1) := ⟨rfl, rfl⟩

theorem or3 (imm : Bool) (dst src2 src1 : Reg) : Statement (.or3 imm dst src2 src1) := ⟨rfl, rfl⟩

theorem xor3 (imm : Bool) (dst src2 src1 : Reg) : Statement (.xor3 imm dst src2 src1) := ⟨rfl, rfl⟩

theorem rlc3 (imm : Bool) (dst src2 src1 : Reg) : Statement (.rlc3 imm dst src2 src1) := ⟨rfl, rfl⟩

theorem sll3 (dst src2 : Reg) (count : BitVec 5) : Statement (.sll3 dst src2 count) := ⟨rfl, rfl⟩

theorem srl3 (dst src2 : Reg) (count : BitVec 5) : Statement (.srl3 dst src2 count) := ⟨rfl, rfl⟩

theorem sra3 (dst src2 : Reg) (count : BitVec 5) : Statement (.sra3 dst src2 count) := ⟨rfl, rfl⟩

theorem rol3 (dst src2 : Reg) (count : BitVec 5) : Statement (.rol3 dst src2 count) := ⟨rfl, rfl⟩

theorem xc3 (imm : Bool) (dst src2 src1 : Reg) : Statement (.xc3 imm dst src2 src1) := ⟨rfl, rfl⟩

theorem ic3 (imm : Bool) (dst src2 src1 : Reg) : Statement (.ic3 imm dst src2 src1) := ⟨rfl, rfl⟩

theorem movApDst3 (imm : Bool) (dst src2 : Reg) : Statement (.movApDst3 imm dst src2) := ⟨rfl, rfl⟩

theorem movMaDst3 (imm : Bool) (dst src2 : Reg) : Statement (.movMaDst3 imm dst src2) := ⟨rfl, rfl⟩

theorem movHiDst3 (imm : Bool) (dst src2 : Reg) : Statement (.movHiDst3 imm dst src2) := ⟨rfl, rfl⟩

theorem movLoDst3 (imm : Bool) (dst src2 : Reg) : Statement (.movLoDst3 imm dst src2) := ⟨rfl, rfl⟩

theorem movPcDst3 (imm : Bool) (dst src2 : Reg) : Statement (.movPcDst3 imm dst src2) := ⟨rfl, rfl⟩

theorem sllLo3 (imm : Bool) (dst src2 : Reg) : Statement (.sllLo3 imm dst src2) := ⟨rfl, rfl⟩

theorem srlLo3 (imm : Bool) (dst src2 : Reg) : Statement (.srlLo3 imm dst src2) := ⟨rfl, rfl⟩

theorem sraLo3 (imm : Bool) (dst src2 : Reg) : Statement (.sraLo3 imm dst src2) := ⟨rfl, rfl⟩

theorem rolLo3 (imm : Bool) (dst src2 : Reg) : Statement (.rolLo3 imm dst src2) := ⟨rfl, rfl⟩

theorem not3 (imm : Bool) (dst src2 : Reg) : Statement (.not3 imm dst src2) := ⟨rfl, rfl⟩

theorem movSrcAp3 (imm : Bool) (src2 src1 : Reg) :
    Statement (.movSrcAp3 imm src2 src1) := ⟨rfl, rfl⟩

theorem movSrcMa3 (imm : Bool) (src2 src1 : Reg) :
    Statement (.movSrcMa3 imm src2 src1) := ⟨rfl, rfl⟩

theorem movSrcHi3 (imm : Bool) (src2 src1 : Reg) :
    Statement (.movSrcHi3 imm src2 src1) := ⟨rfl, rfl⟩

theorem movSrcLo3 (imm : Bool) (src2 src1 : Reg) :
    Statement (.movSrcLo3 imm src2 src1) := ⟨rfl, rfl⟩

theorem movSrcPc3 (imm : Bool) (src2 src1 : Reg) :
    Statement (.movSrcPc3 imm src2 src1) := ⟨rfl, rfl⟩

theorem msetup3 (imm : Bool) (src2 src1 : Reg) : Statement (.msetup3 imm src2 src1) := ⟨rfl, rfl⟩

theorem mstep3 (imm : Bool) (src2 src1 : Reg) : Statement (.mstep3 imm src2 src1) := ⟨rfl, rfl⟩

theorem umend3 (imm : Bool) (src2 src1 : Reg) : Statement (.umend3 imm src2 src1) := ⟨rfl, rfl⟩

theorem dstep3 (imm : Bool) (src2 src1 : Reg) : Statement (.dstep3 imm src2 src1) := ⟨rfl, rfl⟩

theorem mov2 (imm : Bool) (dst src : Reg) : Statement (.mov2 imm dst src) := ⟨rfl, rfl⟩

theorem add2 (imm : Bool) (dst src : Reg) : Statement (.add2 imm dst src) := ⟨rfl, rfl⟩

theorem sub2 (imm : Bool) (dst src : Reg) : Statement (.sub2 imm dst src) := ⟨rfl, rfl⟩

theorem subr2 (imm : Bool) (dst src : Reg) : Statement (.subr2 imm dst src) := ⟨rfl, rfl⟩

theorem and2 (imm : Bool) (dst src : Reg) : Statement (.and2 imm dst src) := ⟨rfl, rfl⟩

theorem or2 (imm : Bool) (dst src : Reg) : Statement (.or2 imm dst src) := ⟨rfl, rfl⟩

theorem xor2 (imm : Bool) (dst src : Reg) : Statement (.xor2 imm dst src) := ⟨rfl, rfl⟩

theorem rlc2 (imm : Bool) (dst src : Reg) : Statement (.rlc2 imm dst src) := ⟨rfl, rfl⟩

theorem sll2 (dst : Reg) (count : BitVec 5) : Statement (.sll2 dst count) := ⟨rfl, rfl⟩

theorem srl2 (dst : Reg) (count : BitVec 5) : Statement (.srl2 dst count) := ⟨rfl, rfl⟩

theorem sra2 (dst : Reg) (count : BitVec 5) : Statement (.sra2 dst count) := ⟨rfl, rfl⟩

theorem rol2 (dst : Reg) (count : BitVec 5) : Statement (.rol2 dst count) := ⟨rfl, rfl⟩

theorem xc2 (imm : Bool) (dst src : Reg) : Statement (.xc2 imm dst src) := ⟨rfl, rfl⟩

theorem ic2 (imm : Bool) (dst src : Reg) : Statement (.ic2 imm dst src) := ⟨rfl, rfl⟩

theorem movApDst2 (imm : Bool) (dst : Reg) : Statement (.movApDst2 imm dst) := ⟨rfl, rfl⟩

theorem movMaDst2 (imm : Bool) (dst : Reg) : Statement (.movMaDst2 imm dst) := ⟨rfl, rfl⟩

theorem movHiDst2 (imm : Bool) (dst : Reg) : Statement (.movHiDst2 imm dst) := ⟨rfl, rfl⟩

theorem movLoDst2 (imm : Bool) (dst : Reg) : Statement (.movLoDst2 imm dst) := ⟨rfl, rfl⟩

theorem movPcDst2 (imm : Bool) (dst : Reg) : Statement (.movPcDst2 imm dst) := ⟨rfl, rfl⟩

theorem sllLo2 (imm : Bool) (dst : Reg) : Statement (.sllLo2 imm dst) := ⟨rfl, rfl⟩

theorem srlLo2 (imm : Bool) (dst : Reg) : Statement (.srlLo2 imm dst) := ⟨rfl, rfl⟩

theorem sraLo2 (imm : Bool) (dst : Reg) : Statement (.sraLo2 imm dst) := ⟨rfl, rfl⟩

theorem rolLo2 (imm : Bool) (dst : Reg) : Statement (.rolLo2 imm dst) := ⟨rfl, rfl⟩

theorem not2 (imm : Bool) (dst : Reg) : Statement (.not2 imm dst) := ⟨rfl, rfl⟩

theorem movSrcAp2 (imm : Bool) (src : Reg) : Statement (.movSrcAp2 imm src) := ⟨rfl, rfl⟩

theorem movSrcMa2 (imm : Bool) (src : Reg) : Statement (.movSrcMa2 imm src) := ⟨rfl, rfl⟩

theorem movSrcHi2 (imm : Bool) (src : Reg) : Statement (.movSrcHi2 imm src) := ⟨rfl, rfl⟩

theorem movSrcLo2 (imm : Bool) (src : Reg) : Statement (.movSrcLo2 imm src) := ⟨rfl, rfl⟩

theorem movSrcPc2 (imm : Bool) (src : Reg) : Statement (.movSrcPc2 imm src) := ⟨rfl, rfl⟩

theorem msetup2 (imm : Bool) (src : Reg) : Statement (.msetup2 imm src) := ⟨rfl, rfl⟩

theorem mstep2 (imm : Bool) (src : Reg) : Statement (.mstep2 imm src) := ⟨rfl, rfl⟩

theorem umend2 (imm : Bool) (src : Reg) : Statement (.umend2 imm src) := ⟨rfl, rfl⟩

theorem dstep2 (imm : Bool) (src : Reg) : Statement (.dstep2 imm src) := ⟨rfl, rfl⟩

theorem lt (h : CondHost) : Statement (.lt h) :=
  ⟨encode_host .lt h, decodedForm_host .lt h⟩

theorem ge (h : CondHost) : Statement (.ge h) :=
  ⟨encode_host .ge h, decodedForm_host .ge h⟩

theorem le (h : CondHost) : Statement (.le h) :=
  ⟨encode_host .le h, decodedForm_host .le h⟩

theorem gt (h : CondHost) : Statement (.gt h) :=
  ⟨encode_host .gt h, decodedForm_host .gt h⟩

theorem lo (h : CondHost) : Statement (.lo h) :=
  ⟨encode_host .lo h, decodedForm_host .lo h⟩

theorem hs (h : CondHost) : Statement (.hs h) :=
  ⟨encode_host .hs h, decodedForm_host .hs h⟩

theorem ls (h : CondHost) : Statement (.ls h) :=
  ⟨encode_host .ls h, decodedForm_host .ls h⟩

theorem hi (h : CondHost) : Statement (.hi h) :=
  ⟨encode_host .hi h, decodedForm_host .hi h⟩

theorem zand (h : CondHost) : Statement (.zand h) :=
  ⟨encode_host .zand h, decodedForm_host .zand h⟩

theorem nzand (h : CondHost) : Statement (.nzand h) :=
  ⟨encode_host .nzand h, decodedForm_host .nzand h⟩

theorem zor (h : CondHost) : Statement (.zor h) :=
  ⟨encode_host .zor h, decodedForm_host .zor h⟩

theorem nzor (h : CondHost) : Statement (.nzor h) :=
  ⟨encode_host .nzor h, decodedForm_host .nzor h⟩

theorem eq (h : CondHost) : Statement (.eq h) :=
  ⟨encode_host .eq h, decodedForm_host .eq h⟩

theorem ne (h : CondHost) : Statement (.ne h) :=
  ⟨encode_host .ne h, decodedForm_host .ne h⟩

end Sys2Proof.Laws.DecodedFormKeepsWord
end

