-- ==== Sys2Proof/Tests/Slice0.lean ====
section
/-! SUPPORT. The model's own tests. Expected results come from the spec: the word layouts of
30_encoding.md and the vectors of 95_test_vectors.md, or hand calculation from the rule named. Every
statement for the provers has a witness that its hypotheses can be met. -/

namespace Sys2Proof.Tests

open Sys2Proof Sys2Proof.Machine

/-! ### Helpers -/

/-- A machine at address 100 in supervisor state, with a program area around 100 and data elsewhere. -/
def base : State :=
  { State.reset with
    pc0 := 100, pc1 := 101, pc2 := 102, pcm := 99
    memDomain := [⟨0, 0x7FFF⟩, ⟨0xFFFFFF00, 0xFFFFFFFF⟩]
    codeDomain := [⟨0x60, 0x6F⟩]
    supWords := [⟨1, 1⟩] }

/-- `base` with some registers given. -/
def given (rs : List (Reg × Word)) : State := rs.foldl (fun s p => setReg s p.1 p.2) base

/-- A word of memory given. -/
def holding (a v : Word) (s : State) : State := { s with mem := s.mem.setWord a v }

/-- The same machine in user state: an SUreg word that does not mean supervisor state is enabled. -/
def inUser (s : State) : State := { s with suCur := .enabled 0, suNxt := .enabled 0 }

/-- The same machine directly after a load into a register. -/
def afterLoad (r : Reg) (s : State) : State := { s with ldPrev := some r }

/-- A component of the next state, if there is one. -/
def next {α : Type} (f : State → α) (o : Result) : Option α :=
  match o with
  | .next t => some (f t)
  | _ => none

/-- The reason of a refusal, if it is one. -/
def refusal (o : Result) : Option Refusal :=
  match o with
  | .refused r => some r
  | _ => none

/-- The reason of a fault, if it is one. -/
def fault (o : Result) : Option Fault :=
  match o with
  | .fault r => some r
  | _ => none

/-! ### Well-formedness -/

/-- Each check of `Instr.wf` refuses an ill-formed term: an ALU23 word with one idle piece, under the
packed constructor; the idle piece under a row of its own; a legal word as illegal or as reserved. -/
theorem test_wf_refuses :
    Instr.wf (.alu23 (.bin .add false 3 2 1) Alu2.idle) = false ∧
    Instr.wf (.alu23 Alu3.idle (.not false 3)) = false ∧
    Instr.wf (.mov3 false 0 0 0) = false ∧ Instr.wf (.mov2 false 0 0) = false ∧
    Instr.wf (.illegal 0x0C112100) = false ∧ Instr.wf (.reserved 0x0C112100) = false ∧
    Instr.wf (.reserved 0x00EC1F00) = false := by
  decide

/-- Well-formed neighbours of those terms. -/
theorem test_wf_accepts :
    Instr.wf (.alu23 Alu3.idle Alu2.idle) = true ∧
    Instr.wf (.alu23 (.bin .add false 3 2 1) (.not false 3)) = true ∧
    Instr.wf (.mov3 false 0 1 0) = true ∧ Instr.wf (.mov2 true 0 0) = true ∧
    Instr.wf (.illegal 0xFD000000) = true ∧ Instr.wf (.reserved 0x01016E11) = true := by
  decide

/-! ### Decoding -/

/-- The host's numbering: one 32-bit word, and a shorter one with its high bits zero. -/
theorem test_decode_table_word :
    decodeTableWord 32 0x93200008 = some (.lbi 3 2 8) ∧ decodeTableWord 8 0x93200008 = some (.mov3 false 0 0 8) ∧
    decodeTableWord 40 0 = none := by
  decide

/-- Layout ALU23 (R72), the ALU2 piece idle: `00 i' 0 dst alu.3 0000 0000 0000 src2 src1`. -/
theorem test_decode_alu3_operands :
    decode 0x250000FD = .mov3 true 5 15 13 ∧
    decode 0x03100021 = .add3 false 3 2 1 ∧
    decode 0x03200021 = .sub3 false 3 2 1 ∧
    decode 0x03300021 = .subr3 false 3 2 1 ∧
    decode 0x03400021 = .and3 false 3 2 1 ∧
    decode 0x03500021 = .or3 false 3 2 1 ∧
    decode 0x03600021 = .xor3 false 3 2 1 ∧
    decode 0x03700021 = .rlc3 false 3 2 1 ∧
    decode 0x03C00021 = .xc3 false 3 2 1 ∧
    decode 0x03D00021 = .ic3 false 3 2 1 := by
  decide

/-- Shift counts `i' || src1` (R113), and implicit-source codes in src1 (R130). -/
theorem test_decode_alu3_shifts_and_implicit_sources :
    decode 0x01800024 = .sll3 1 2 4 ∧
    decode 0x2190002C = .srl3 1 2 28 ∧
    decode 0x21A0002F = .sra3 1 2 31 ∧
    decode 0x21B00020 = .rol3 1 2 16 ∧
    decode 0x04E00092 = .movApDst3 false 4 9 ∧
    decode 0x04E00093 = .movMaDst3 false 4 9 ∧
    decode 0x04E00094 = .movHiDst3 false 4 9 ∧
    decode 0x04E00095 = .movLoDst3 false 4 9 ∧
    decode 0x04E00097 = .movPcDst3 false 4 9 ∧
    decode 0x04E00098 = .sllLo3 false 4 9 ∧
    decode 0x04E00099 = .srlLo3 false 4 9 ∧
    decode 0x04E0009A = .sraLo3 false 4 9 ∧
    decode 0x04E0009B = .rolLo3 false 4 9 ∧
    decode 0x04E0009C = .not3 false 4 9 := by
  decide

/-- Implicit-destination codes in dst (R143). -/
theorem test_decode_alu3_implicit_destinations :
    decode 0x22F00067 = .movSrcAp3 true 6 7 ∧
    decode 0x23F00067 = .movSrcMa3 true 6 7 ∧
    decode 0x24F00067 = .movSrcHi3 true 6 7 ∧
    decode 0x25F00067 = .movSrcLo3 true 6 7 ∧
    decode 0x27F00067 = .movSrcPc3 true 6 7 ∧
    decode 0x28F00067 = .msetup3 true 6 7 ∧
    decode 0x29F00067 = .mstep3 true 6 7 ∧
    decode 0x2AF00067 = .umend3 true 6 7 ∧
    decode 0x2BF00067 = .dstep3 true 6 7 := by
  decide

/-- Layout ALU23 (R72), the ALU3 piece idle: `00 0 i 0000 0000 dst/src src alu.2 0000 0000`. -/
theorem test_decode_alu2_operands :
    decode 0x10057000 = .mov2 true 5 7 ∧
    decode 0x00012100 = .add2 false 1 2 ∧
    decode 0x00012200 = .sub2 false 1 2 ∧
    decode 0x00012300 = .subr2 false 1 2 ∧
    decode 0x00012400 = .and2 false 1 2 ∧
    decode 0x00012500 = .or2 false 1 2 ∧
    decode 0x00012600 = .xor2 false 1 2 ∧
    decode 0x00012700 = .rlc2 false 1 2 ∧
    decode 0x00012C00 = .xc2 false 1 2 ∧
    decode 0x00012D00 = .ic2 false 1 2 := by
  decide

/-- Shift counts `i || src` (R113), and implicit-source codes in src (R130). -/
theorem test_decode_alu2_shifts_and_implicit_sources :
    decode 0x00014800 = .sll2 1 4 ∧
    decode 0x1001C900 = .srl2 1 28 ∧
    decode 0x1001FA00 = .sra2 1 31 ∧
    decode 0x10010B00 = .rol2 1 16 ∧
    decode 0x00042E00 = .movApDst2 false 4 ∧
    decode 0x00043E00 = .movMaDst2 false 4 ∧
    decode 0x00044E00 = .movHiDst2 false 4 ∧
    decode 0x00045E00 = .movLoDst2 false 4 ∧
    decode 0x00047E00 = .movPcDst2 false 4 ∧
    decode 0x00048E00 = .sllLo2 false 4 ∧
    decode 0x00049E00 = .srlLo2 false 4 ∧
    decode 0x0004AE00 = .sraLo2 false 4 ∧
    decode 0x0004BE00 = .rolLo2 false 4 ∧
    decode 0x0004CE00 = .not2 false 4 := by
  decide

/-- Implicit-destination codes in dst/src (R143). -/
theorem test_decode_alu2_implicit_destinations :
    decode 0x10027F00 = .movSrcAp2 true 7 ∧
    decode 0x10037F00 = .movSrcMa2 true 7 ∧
    decode 0x10047F00 = .movSrcHi2 true 7 ∧
    decode 0x10057F00 = .movSrcLo2 true 7 ∧
    decode 0x10077F00 = .movSrcPc2 true 7 ∧
    decode 0x10087F00 = .msetup2 true 7 ∧
    decode 0x10097F00 = .mstep2 true 7 ∧
    decode 0x100A7F00 = .umend2 true 7 ∧
    decode 0x100B7F00 = .dstep2 true 7 := by
  decide

/-- Words with two pieces, from 95_test_vectors.md sections 2.1 to 2.4, and the all-zero word (R89). -/
theorem test_decode_packed_words :
    decode 0x0C112100 = .alu23 (.bin .add false 12 0 0) (.bin .add false 1 2) ∧
    decode 0x12010322 = .alu23 (.mov false 2 2 2) (.bin .subr true 1 0) ∧
    decode 0x22322010 = .alu23 (.bin .subr true 2 1 0) (.mov false 2 2) ∧
    decode 0x01092F11 = .alu23 (.mov false 1 1 1) (.toSpecial .mstep false 2) ∧
    decode 0x04E11007 = .alu23 (.fromSpecial .pc false 4 0) (.mov false 1 1) ∧
    decode 0x00000000 = .alu23 Alu3.idle Alu2.idle := by
  decide

/-- The loads and LDS, from 95_test_vectors.md section 2.7. -/
theorem test_decode_loads :
    decode 0x93200008 = .lbi 3 2 8 ∧
    decode 0x53221104 = .lbalu 3 2 (.bin .add true 2 1) 4 ∧
    decode 0xD3200004 = .libalu 3 2 (.mov false 0 0) 4 ∧
    decode 0xD3200042 = .lsbalu 3 2 (.mov false 0 0) 2 ∧
    decode 0x81FFFFFE = .ldl 1 0xFFFFFE ∧
    decode 0xC3800000 = .ldi 3 0x800000 ∧
    decode 0xF8000040 = .lds 0x40 := by
  decide

/-- The stores, from 95_test_vectors.md section 2.8. -/
theorem test_decode_stores :
    decode 0xB3200008 = .sbi 3 2 8 ∧
    decode 0x732212FF = .sbalu 3 2 (.bin .sub true 2 1) 0xFF ∧
    decode 0xD3200024 = .sibalu 3 2 (.mov false 0 0) 4 ∧
    decode 0xD3200062 = .ssbalu 3 2 (.mov false 0 0) 2 ∧
    decode 0xA1000064 = .std 1 100 ∧
    decode 0xEBF00000 = .spcb 15 0 ∧
    decode 0xE7FF12FF = .spcalu 15 (.bin .sub true 15 1) 0xFF ∧
    decode 0xEA000020 = .spc 0x20 ∧
    decode 0xF9000041 = .sts 0x41 ∧
    decode 0xFE000042 = .savepc 0x42 := by
  decide

/-- Branches, jumps, sets and traps, from 95_test_vectors.md sections 2.6, 2.9 and 2.10. -/
theorem test_decode_control :
    decode 0xF1C11FFF = .bcnd .eq true 1 1 0xFFF ∧
    decode 0xEEFFFFFF = .bucnd 0xFFFFFF ∧
    decode 0xED500010 = .jbase 5 0x10 ∧
    decode 0xE9200003 = .jbind 2 3 ∧
    decode 0xE5FF1100 = .jibalu 15 (.bin .add true 15 1) 0 ∧
    decode 0xEC000400 = .jdrct 0x400 ∧
    decode 0xE8000020 = .jind 0x20 ∧
    decode 0xFF000010 = .jindss 0x10 ∧
    decode 0xF5025000 = .scnd .lt true 2 5 ∧
    decode 0xF3C4000B = .trap .eq true 4 0 5 true ∧
    decode 0xF3C40FFE = .trap .eq true 4 0 0x7FF false := by
  decide

/-- Illegal and reserved words (R85, R86): words of 95_test_vectors.md section 2.3 and 2.9, one with an
illegal and a reserved piece, which is illegal (R262), and holes of the opcode map. -/
theorem test_decode_refused_words :
    decode 0x01E1101F = .illegal 0x01E1101F ∧
    decode 0x010C1F11 = .illegal 0x010C1F11 ∧
    decode 0x01016E11 = .reserved 0x01016E11 ∧
    decode 0x01001F11 = .reserved 0x01001F11 ∧
    decode 0xF4C21001 = .reserved 0xF4C21001 ∧
    decode 0xF4F21000 = .reserved 0xF4F21000 ∧
    decode 0x00EC1F00 = .illegal 0x00EC1F00 ∧
    decode 0xD0000080 = .illegal 0xD0000080 ∧
    decode 0xE3FFFFFF = .illegal 0xE3FFFFFF ∧
    decode 0xFD000000 = .illegal 0xFD000000 := by
  decide

/-- The condition rows (R170, R172): `b` + suffix with operands `#1,R1,+9`, the word's bits 23:20 the
condition code; the word is read as BCND with that condition. -/
theorem test_decode_conditions :
    encode (.lt (.branch true 1 1 9)) = 0xF1011009 ∧ decode 0xF1011009 = .bcnd .lt true 1 1 9 ∧
    encode (.ge (.branch true 1 1 9)) = 0xF1111009 ∧ decode 0xF1111009 = .bcnd .ge true 1 1 9 ∧
    encode (.le (.branch true 1 1 9)) = 0xF1211009 ∧ decode 0xF1211009 = .bcnd .le true 1 1 9 ∧
    encode (.gt (.branch true 1 1 9)) = 0xF1311009 ∧ decode 0xF1311009 = .bcnd .gt true 1 1 9 ∧
    encode (.lo (.branch true 1 1 9)) = 0xF1411009 ∧ decode 0xF1411009 = .bcnd .lo true 1 1 9 ∧
    encode (.hs (.branch true 1 1 9)) = 0xF1511009 ∧ decode 0xF1511009 = .bcnd .hs true 1 1 9 ∧
    encode (.ls (.branch true 1 1 9)) = 0xF1611009 ∧ decode 0xF1611009 = .bcnd .ls true 1 1 9 ∧
    encode (.hi (.branch true 1 1 9)) = 0xF1711009 ∧ decode 0xF1711009 = .bcnd .hi true 1 1 9 ∧
    encode (.zand (.branch true 1 1 9)) = 0xF1811009 ∧ decode 0xF1811009 = .bcnd .zand true 1 1 9 ∧
    encode (.nzand (.branch true 1 1 9)) = 0xF1911009 ∧ decode 0xF1911009 = .bcnd .nzand true 1 1 9 ∧
    encode (.zor (.branch true 1 1 9)) = 0xF1A11009 ∧ decode 0xF1A11009 = .bcnd .zor true 1 1 9 ∧
    encode (.nzor (.branch true 1 1 9)) = 0xF1B11009 ∧ decode 0xF1B11009 = .bcnd .nzor true 1 1 9 ∧
    encode (.eq (.branch true 1 1 9)) = 0xF1C11009 ∧ decode 0xF1C11009 = .bcnd .eq true 1 1 9 ∧
    encode (.ne (.branch true 1 1 9)) = 0xF1D11009 ∧ decode 0xF1D11009 = .bcnd .ne true 1 1 9 := by
  decide

/-! ### The ALU pieces -/

/-- R105: `mov #-3,R5`. -/
theorem test_mov3_signed_literal :
    next (reg · 5) (exec (.mov3 true 5 15 13) (base)) = some 0xFFFFFFFD := by
  decide

/-- R105: a 4-bit literal is not signed. -/
theorem test_mov2_literal :
    next (reg · 5) (exec (.mov2 true 5 15) (given [(5, 7)])) = some 15 := by
  decide

/-- R106. -/
theorem test_add3 :
    next (reg · 3) (exec (.add3 false 3 2 1) (given [(1, 3), (2, 10)])) = some 13 := by
  decide

/-- Section 2.2: `add #1,R1` wraps. -/
theorem test_add2_wraps :
    next (reg · 1) (exec (.add2 true 1 1) (given [(1, 0xFFFFFFFF)])) = some 0 := by
  decide

/-- S4: result := src2 - src1. -/
theorem test_sub3 :
    next (reg · 3) (exec (.sub3 false 3 2 1) (given [(1, 3), (2, 10)])) = some 7 := by
  decide

/-- Section 2.2. -/
theorem test_sub2 :
    next (reg · 1) (exec (.sub2 true 1 1) (given [(1, 0)])) = some 0xFFFFFFFF := by
  decide

/-- S4. -/
theorem test_subr3 :
    next (reg · 3) (exec (.subr3 false 3 2 1) (given [(1, 3), (2, 10)])) = some 0xFFFFFFF9 := by
  decide

/-- Section 2.2: literal 1111 is +15. -/
theorem test_subr2_literal_is_positive :
    next (reg · 1) (exec (.subr2 true 1 15) (given [(1, 20)])) = some 0xFFFFFFFB := by
  decide

/-- R109's example. -/
theorem test_and3 :
    next (reg · 3) (exec (.and3 false 3 2 1) (given [(1, 0xFFFFFFFF), (2, 2)])) = some 2 := by
  decide

/-- Section 2.2. -/
theorem test_and2 :
    next (reg · 1) (exec (.and2 true 1 6) (given [(1, 0xFFFFFFFF)])) = some 6 := by
  decide

/-- R110's example. -/
theorem test_or3 :
    next (reg · 3) (exec (.or3 true 3 2 8) (given [(2, 1)])) = some 9 := by
  decide

/-- Section 2.2. -/
theorem test_or2 :
    next (reg · 1) (exec (.or2 true 1 8) (given [(1, 1)])) = some 9 := by
  decide

/-- R111's example. -/
theorem test_xor3 :
    next (reg · 3) (exec (.xor3 false 3 2 1) (given [(1, 0xFFFFFFFF), (2, 0xFFFFFFF9)])) = some 6 := by
  decide

/-- Section 2.2. -/
theorem test_xor2 :
    next (reg · 1) (exec (.xor2 true 1 1) (given [(1, 1)])) = some 0 := by
  decide

/-- R112's example. -/
theorem test_rlc3 :
    next (reg · 3) (exec (.rlc3 false 3 2 1) (setLo (given [(1, 0xAABBCCDD), (2, 0x11223344)]) 8)) = some 0x223344AA := by
  decide

/-- Section 2.2: bits 31:5 of Lo have no effect. -/
theorem test_rlc3_count_31 :
    next (reg · 3) (exec (.rlc3 false 3 2 1) (setLo (given [(1, 0xAABBCCDD), (2, 0x11223344)]) 0xFFFFFFFF)) = some 0x555DE66E := by
  decide

/-- R112: count 0 gives the second operand. -/
theorem test_rlc2_count_0 :
    next (reg · 2) (exec (.rlc2 false 2 1) (given [(1, 0xAABBCCDD), (2, 0x11223344)])) = some 0x11223344 := by
  decide

/-- Section 2.2, as an ALU3 piece. -/
theorem test_sll3 :
    next (reg · 3) (exec (.sll3 3 1 31) (given [(1, 3)])) = some 0x80000000 := by
  decide

/-- Section 2.2. -/
theorem test_sll2 :
    next (reg · 1) (exec (.sll2 1 16) (given [(1, 0xFFFF)])) = some 0xFFFF0000 := by
  decide

/-- R115's example. -/
theorem test_srl3 :
    next (reg · 3) (exec (.srl3 3 1 28) (given [(1, 0xF0000000)])) = some 15 := by
  decide

/-- Section 2.2. -/
theorem test_srl2 :
    next (reg · 1) (exec (.srl2 1 31) (given [(1, 0x80000000)])) = some 1 := by
  decide

/-- R116's example. -/
theorem test_sra3 :
    next (reg · 3) (exec (.sra3 3 1 31) (given [(1, 0xFFFFFFF9)])) = some 0xFFFFFFFF := by
  decide

/-- Section 2.2. -/
theorem test_sra2 :
    next (reg · 1) (exec (.sra2 1 4) (given [(1, 0x80000000)])) = some 0xF8000000 := by
  decide

/-- Section 2.2: count 0. -/
theorem test_rol3 :
    next (reg · 3) (exec (.rol3 3 1 0) (given [(1, 0x12345678)])) = some 0x12345678 := by
  decide

/-- Section 2.2. -/
theorem test_rol2 :
    next (reg · 1) (exec (.rol2 1 31) (given [(1, 0x80000001)])) = some 0xC0000000 := by
  decide

/-- R118's example. -/
theorem test_xc3 :
    next (reg · 3) (exec (.xc3 false 3 2 1) (given [(1, 0x406), (2, 0xAABBCCDD)])) = some 0xBB := by
  decide

/-- Section 2.2, as an ALU2 piece. -/
theorem test_xc2 :
    next (reg · 2) (exec (.xc2 true 2 3) (given [(2, 0xAABBCCDD)])) = some 0xAA := by
  decide

/-- R119's example. -/
theorem test_ic3 :
    next (reg · 3) (exec (.ic3 false 3 0 1) (setLo (given [(1, 0x41), (3, 0xAABBCCDD)]) 1)) = some 0xAABB41DD := by
  decide

/-- Section 2.2. -/
theorem test_ic2 :
    next (reg · 3) (exec (.ic2 false 3 1) (setLo (given [(1, 0x1F41), (3, 0xAABBCCDD)]) 7)) = some 0x41BBCCDD := by
  decide

/-- Section 2.1, and the ALU2 piece sees what the ALU3 piece left (section 2.1, R289). -/
theorem test_packed_order :
    next (fun t => (reg t 12, reg t 1)) (exec (.alu23 (.bin .add false 12 0 0) (.bin .add false 1 2))
      (given [(0, 5), (1, 7), (2, 9)])) = some (0xA, 0x10) ∧
    next (reg · 5) (exec (.alu23 (.mov true 5 15 13) (.mov false 5 5)) base) = some 0xFFFFFFFD := by
  decide

/-- R103: the ALU2 write is the later one. -/
theorem test_packed_writers_of_one_register :
    next (reg · 5) (exec (.alu23 (.mov true 5 0 1) (.mov true 5 2)) base) = some 2 := by
  decide

/-! ### The special registers -/

/-- R137. -/
theorem test_sllLo3 :
    next (reg · 3) (exec (.sllLo3 true 3 1) (setLo (given [(1, 15)]) 4)) = some 0xF0 := by
  decide

/-- Section 2.3. -/
theorem test_sllLo2 :
    next (reg · 1) (exec (.sllLo2 false 1) (setLo (given [(1, 15)]) 4)) = some 0xF0 := by
  decide

/-- R138. -/
theorem test_srlLo3 :
    next (reg · 3) (exec (.srlLo3 false 3 1) (setLo (given [(1, 0xF0000000)]) 28)) = some 15 := by
  decide

/-- Section 2.3. -/
theorem test_srlLo2 :
    next (reg · 1) (exec (.srlLo2 false 1) (setLo (given [(1, 0xF0000000)]) 0x24)) = some 0x0F000000 := by
  decide

/-- R139. -/
theorem test_sraLo3 :
    next (reg · 3) (exec (.sraLo3 false 3 1) (setLo (given [(1, 0x80000000)]) 4)) = some 0xF8000000 := by
  decide

/-- Section 2.3. -/
theorem test_sraLo2 :
    next (reg · 1) (exec (.sraLo2 false 1) (setLo (given [(1, 0x80000000)]) 31)) = some 0xFFFFFFFF := by
  decide

/-- R140: bits 31:5 of Lo have no effect. -/
theorem test_rolLo3 :
    next (reg · 3) (exec (.rolLo3 false 3 1) (setLo (given [(1, 0x12345678)]) 32)) = some 0x12345678 := by
  decide

/-- Section 2.3. -/
theorem test_rolLo2 :
    next (reg · 1) (exec (.rolLo2 false 1) (setLo (given [(1, 0x12345678)]) 8)) = some 0x34567812 := by
  decide

/-- R141. -/
theorem test_not3 :
    next (reg · 3) (exec (.not3 true 3 1) (given [(1, 0x0000FFFF)])) = some 0xFFFF0000 := by
  decide

/-- Section 2.3. -/
theorem test_not2 :
    next (reg · 1) (exec (.not2 false 1) (given [(1, 0x0000FFFF)])) = some 0xFFFF0000 := by
  decide

/-- Section 2.3: at 100 the ALU3 piece gives 101 and the ALU2 piece 102. -/
theorem test_mov_from_pc :
    next (reg · 4) (exec (.movPcDst3 false 4 0) base) = some 101 ∧
    next (reg · 4) (exec (.movPcDst2 false 4) base) = some 102 := by
  decide

/-- Section 2.3: next state (101, 500, 501). -/
theorem test_mov_to_pc :
    next (fun t => (t.pc0, t.pc1, t.pc2)) (exec (.movSrcPc2 false 7) (given [(7, 500)])) = some (101, 500, 501) ∧
    next (fun t => (t.pc0, t.pc1, t.pc2)) (exec (.movSrcPc3 true 0 15) base) = some (101, 15, 16) := by
  decide

/-- R134, R135, R147, R148. -/
theorem test_mov_hi_lo :
    next (reg · 4) (exec (.movHiDst3 true 4 0) (setHi base 7)) = some 7 ∧
    next (reg · 4) (exec (.movHiDst2 true 4) (setHi base 7)) = some 7 ∧
    next (reg · 4) (exec (.movLoDst3 true 4 0) (setLo base 7)) = some 7 ∧
    next (reg · 4) (exec (.movLoDst2 true 4) (setLo base 7)) = some 7 ∧
    next (·.hi) (exec (.movSrcHi3 true 0 15) base) = some 15 ∧
    next (·.hi) (exec (.movSrcHi2 false 1) (given [(1, 0x80000000)])) = some 0x80000000 ∧
    next (·.lo) (exec (.movSrcLo3 true 0 15) base) = some 15 ∧
    next (·.lo) (exec (.movSrcLo2 false 1) (given [(1, 0x80000000)])) = some 0x80000000 := by
  decide

/-- R132, R133, R145, R146 in supervisor state. -/
theorem test_mov_ap_ma :
    next (·.ap) (exec (.movSrcAp2 false 1) (given [(1, 0x1234)])) = some 0x1234 ∧
    next (·.ap) (exec (.movSrcAp3 false 0 1) (given [(1, 0x1234)])) = some 0x1234 ∧
    next (·.ma) (exec (.movSrcMa2 true 7) base) = some 7 ∧
    next (·.ma) (exec (.movSrcMa3 true 0 7) base) = some 7 ∧
    next (reg · 2) (exec (.movApDst3 false 2 0) (setAp base 9)) = some 9 ∧
    next (reg · 2) (exec (.movApDst2 false 2) (setAp base 9)) = some 9 ∧
    next (reg · 2) (exec (.movMaDst3 false 2 0) (setMa base 9)) = some 9 ∧
    next (reg · 2) (exec (.movMaDst2 false 2) (setMa base 9)) = some 9 := by
  decide

/-- Section 2.3: `mov R1,Ap` in user state; and a user that SUreg word 1 makes a supervisor. -/
theorem test_privileged_in_user_state :
    refusal (exec (.movSrcAp2 false 1) (inUser base)) = some (.privilegeViolation 0x00021F00) ∧
    next (·.ap) (exec (.movSrcAp2 true 1) { base with suCur := .enabled 1 }) = some 1 := by
  decide

/-- R153's example. -/
theorem test_msetup :
    next mulDiv (exec (.msetup2 false 2) (setMulDiv (given [(2, 5)]) ⟨0, 6, true⟩))
      = some ⟨0xFFFFFFFD, 0x80000001, true⟩ ∧
    next mulDiv (exec (.msetup3 false 0 2) (setMulDiv (given [(2, 5)]) ⟨0, 6, true⟩))
      = some ⟨0xFFFFFFFD, 0x80000001, true⟩ := by
  decide

/-- Section 2.4. -/
theorem test_mstep :
    next mulDiv (exec (.mstep2 true 1) (setMulDiv base ⟨0, 3, false⟩))
      = some ⟨0xFFFFFFFF, 0xC0000000, true⟩ ∧
    next mulDiv (exec (.mstep3 false 0 2) (setMulDiv (given [(2, 7)]) ⟨0, 3, false⟩))
      = some ⟨0xFFFFFFFE, 0x40000000, true⟩ := by
  decide

/-- Section 2.4, and R154 with Db clear. -/
theorem test_umend :
    next mulDiv (exec (.umend2 false 2) (setMulDiv (given [(2, 3)]) ⟨0xFFFFFFFE, 5, true⟩))
      = some ⟨1, 5, true⟩ ∧
    next mulDiv (exec (.umend3 true 0 3) (setMulDiv base ⟨0xFFFFFFFE, 5, false⟩))
      = some ⟨0xFFFFFFFE, 5, false⟩ := by
  decide

/-- Section 2.4. -/
theorem test_dstep :
    next mulDiv (exec (.dstep2 false 2) (setMulDiv (given [(2, 7)]) ⟨3, 0x40000000, true⟩))
      = some ⟨0xFFFFFFFF, 0x80000000, true⟩ ∧
    next mulDiv (exec (.dstep3 false 0 2) (setMulDiv (given [(2, 5)]) ⟨0x80000000, 1, false⟩))
      = some ⟨5, 3, false⟩ := by
  decide

/-! ### Branches and jumps -/

/-- Section 2.6: `beq #1,R1,+9` at 100, taken and not taken. -/
theorem test_bcnd :
    next (fun t => (t.pc0, t.pc1, t.pc2)) (exec (.bcnd .eq true 1 1 9) (given [(1, 1)])) = some (101, 110, 111) ∧
    next (fun t => (t.pc0, t.pc1, t.pc2)) (exec (.bcnd .eq true 1 1 9) (given [(1, 2)])) = some (101, 102, 103) := by
  decide

/-- Section 2.6: offset -1 targets the branch itself. -/
theorem test_bcnd_backward :
    next (fun t => (t.pc0, t.pc1, t.pc2)) (exec (.bcnd .eq true 1 1 0xFFF) (given [(1, 1)])) = some (101, 100, 101) := by
  decide

/-- Section 2.6. -/
theorem test_bucnd :
    next (fun t => (t.pc0, t.pc1, t.pc2)) (exec (.bucnd 9) base) = some (101, 110, 111) ∧
    next (fun t => (t.pc0, t.pc1, t.pc2)) (exec (.bucnd 0xFFFFFF) base) = some (101, 100, 101) := by
  decide

/-- Section 2.6: the sum wraps. -/
theorem test_jbase :
    next (fun t => (t.pc0, t.pc1, t.pc2)) (exec (.jbase 5 0x10) (given [(5, 0x200)])) = some (101, 0x210, 0x211) ∧
    next (fun t => (t.pc0, t.pc1, t.pc2)) (exec (.jbase 5 0xFFFFF) (given [(5, 0)])) = some (101, 0xFFFFFFFF, 0) := by
  decide

/-- Section 2.6: the address is sign-extended. -/
theorem test_jdrct :
    next (fun t => (t.pc0, t.pc1, t.pc2)) (exec (.jdrct 0x400) base) = some (101, 0x400, 0x401) ∧
    next (fun t => (t.pc0, t.pc1, t.pc2)) (exec (.jdrct 0xFFFFF0) base) = some (101, 0xFFFFFFF0, 0xFFFFFFF1) := by
  decide

/-- Section 2.6: two delay slots. -/
theorem test_jbind :
    next (fun t => (t.pc0, t.pc1, t.pc2)) (exec (.jbind 2 3) (holding 0x303 0x500 (given [(2, 0x300)]))) = some (101, 102, 0x500) := by
  decide

/-- Section 2.6: pop and jump. -/
theorem test_jibalu :
    next (fun t => (t.pc1, t.pc2, reg t 15)) (exec (.jibalu 15 (.bin .add true 15 1) 0)
      (holding 0x7F0 0x123 (given [(15, 0x7F0)]))) = some (102, 0x123, 0x7F1) := by
  decide

/-- Section 2.6. -/
theorem test_jind :
    next (fun t => (t.pc0, t.pc1, t.pc2)) (exec (.jind 0x20) (holding 0x20 0x166 base)) = some (101, 102, 0x166) := by
  decide

/-- Section 2.6: the setting moves two instructions later. -/
theorem test_jindss :
    next (fun t => (t.pc2, t.suCur, t.suNxt)) (exec (.jindss 0x10)
      (holding 0x10 0x101 { base with suReg := 0x55 })) = some (0x101, .trapped, .enabled 0x55) := by
  decide

/-- Section 2.6. -/
theorem test_jindss_in_user_state :
    refusal (exec (.jindss 0x10) (inUser base)) = some (.privilegeViolation 0xFF000010) := by
  decide

/-- Section 2.6, interactions. -/
theorem test_pc_access_after_indirect_jump :
    refusal (exec (.bucnd 0) { base with jd2Prev := true }) = some (.pcAccessConflict 0xEE000000) ∧
    next (·.pc1) (exec (.movSrcPc2 true 9) { base with jd2Prev := true }) = some 9 := by
  decide

/-- The conditions in code order (R170). -/
def allConds : List Cond :=
  [.lt, .ge, .le, .gt, .lo, .hs, .ls, .hi, .zand, .nzand, .zor, .nzor, .eq, .ne]

/-- The table of section 2.5. -/
theorem test_conditions :
    (allConds.map fun c => test c 5 9) =
      [true, false, true, false, true, false, true, false, false, true, false, true, false, true] ∧
    (allConds.map fun c => test c 9 5) =
      [false, true, false, true, false, true, false, true, false, true, false, true, false, true] ∧
    (allConds.map fun c => test c 5 5) =
      [false, true, true, false, false, true, true, false, false, true, false, true, true, false] ∧
    (allConds.map fun c => test c 0xFFFFFFFF 1) =
      [true, false, true, false, false, true, false, true, false, true, false, true, false, true] ∧
    (allConds.map fun c => test c 1 0xFFFFFFFF) =
      [false, true, false, true, true, false, true, false, false, true, false, true, false, true] ∧
    (allConds.map fun c => test c 0x80000000 0x7FFFFFFF) =
      [true, false, true, false, false, true, false, true, true, false, false, true, false, true] ∧
    (allConds.map fun c => test c 0 0) =
      [false, true, true, false, false, true, true, false, true, false, true, false, true, false] ∧
    (allConds.map fun c => test c 0xF0 0x0F) =
      [false, true, false, true, false, true, false, true, true, false, false, true, false, true] := by
  decide

/-- The row (5, 9) of section 2.5 through each suffix's set instruction (R240). -/
theorem test_condition_rows :
    next (reg · 2) (exec (.lt (.set true 2 5)) (given [(2, 9)])) = some 0xFFFFFFFF ∧
    next (reg · 2) (exec (.ge (.set true 2 5)) (given [(2, 9)])) = some 0 ∧
    next (reg · 2) (exec (.le (.set true 2 5)) (given [(2, 9)])) = some 0xFFFFFFFF ∧
    next (reg · 2) (exec (.gt (.set true 2 5)) (given [(2, 9)])) = some 0 ∧
    next (reg · 2) (exec (.lo (.set true 2 5)) (given [(2, 9)])) = some 0xFFFFFFFF ∧
    next (reg · 2) (exec (.hs (.set true 2 5)) (given [(2, 9)])) = some 0 ∧
    next (reg · 2) (exec (.ls (.set true 2 5)) (given [(2, 9)])) = some 0xFFFFFFFF ∧
    next (reg · 2) (exec (.hi (.set true 2 5)) (given [(2, 9)])) = some 0 ∧
    next (reg · 2) (exec (.zand (.set true 2 5)) (given [(2, 9)])) = some 0 ∧
    next (reg · 2) (exec (.nzand (.set true 2 5)) (given [(2, 9)])) = some 0xFFFFFFFF ∧
    next (reg · 2) (exec (.zor (.set true 2 5)) (given [(2, 9)])) = some 0 ∧
    next (reg · 2) (exec (.nzor (.set true 2 5)) (given [(2, 9)])) = some 0xFFFFFFFF ∧
    next (reg · 2) (exec (.eq (.set true 2 5)) (given [(2, 9)])) = some 0 ∧
    next (reg · 2) (exec (.ne (.set true 2 5)) (given [(2, 9)])) = some 0xFFFFFFFF := by
  decide

/-! ### Loads -/

/-- Section 2.7; the load is noted (R292). -/
theorem test_lbi :
    next (fun t => (reg t 3, t.ldPrev)) (exec (.lbi 3 2 8) (holding 0x1008 0xCAFE0001 (given [(2, 0x1000)])))
      = some (0xCAFE0001, some 3) ∧
    next (reg · 3) (exec (.lbi 3 2 0xFFFFF) (holding 0xFFF 0x77 (given [(2, 0x1000)]))) = some 0x77 := by
  decide

/-- Section 2.7, with memory up to 0x7FFF. -/
theorem test_lbi_bad_address :
    fault (exec (.lbi 3 2 8) (given [(2, 0x8000)])) = some (.badAddress 0x8008) := by
  decide

/-- Section 2.7: the address from the old base; the loaded word is written last. -/
theorem test_lbalu :
    next (fun t => (reg t 3, reg t 2)) (exec (.lbalu 3 2 (.bin .add true 2 1) 4)
      (holding 0x1004 7 (given [(2, 0x1000)]))) = some (7, 0x1001) ∧
    next (reg · 3) (exec (.lbalu 3 2 (.bin .add true 3 5) 0x80)
      (holding 0x1000 0x1234 (given [(2, 0x1080), (3, 1)]))) = some 0x1234 := by
  decide

/-- Section 2.7. -/
theorem test_libalu :
    next (reg · 3) (exec (.libalu 3 2 (.mov false 0 0) 4) (holding 0x1005 9 (given [(2, 0x1000), (4, 5)])))
      = some 9 := by
  decide

/-- Section 2.7: an arithmetic shift. -/
theorem test_lsbalu :
    next (reg · 3) (exec (.lsbalu 3 2 (.mov false 0 0) 2) (holding 0x1001 0xAABBCCDD (given [(2, 0x4006)])))
      = some 0xAABBCCDD ∧
    next (·.mar) (exec (.lsbalu 3 2 (.mov false 0 0) 4) (given [(2, 0xFFFFFFF0)])) = some 0xFFFFFFFF := by
  decide

/-- Section 2.7. -/
theorem test_ldl :
    next (reg · 1) (exec (.ldl 1 0x100) (holding 0x100 42 base)) = some 42 ∧
    next (·.mar) (exec (.ldl 1 0xFFFFFE) base) = some 0xFFFFFFFE := by
  decide

/-- Section 2.7; no load delay (R206). -/
theorem test_ldi :
    next (fun t => (reg t 3, t.ldPrev)) (exec (.ldi 3 0x800000) base) = some (0xFF800000, none) ∧
    next (reg · 3) (exec (.ldi 3 0x7FFFFF) base) = some 0x007FFFFF := by
  decide

/-- Section 2.7. -/
theorem test_lds :
    next (fun t => (t.suReg, t.ldsPrev)) (exec (.lds 0x40) (holding 0x40 0x123 base)) = some (0x123, true) ∧
    refusal (exec (.lds 0x40) (inUser base)) = some (.privilegeViolation 0xF8000040) := by
  decide

/-- Section 2.7, load delay: a read and a write of the loaded register, and a literal field that reads nothing. -/
theorem test_load_delay :
    refusal (exec (.add2 false 2 1) (afterLoad 1 base)) = some (.loadDelayViolation 0x00021100) ∧
    refusal (exec (.ldi 1 5) (afterLoad 1 base)) = some (.loadDelayViolation 0xC1000005) ∧
    next (reg · 2) (exec (.add2 true 2 1) (afterLoad 1 base)) = some 1 := by
  decide

/-! ### Stores -/

/-- Section 2.8. -/
theorem test_sbi :
    next (·.mem.word 0x1008) (exec (.sbi 3 2 8) (given [(2, 0x1000), (3, 0xDEADBEEF)])) = some 0xDEADBEEF := by
  decide

/-- Section 2.8: push. -/
theorem test_sbalu :
    next (fun t => (t.mem.word 0xFFF, reg t 2)) (exec (.sbalu 3 2 (.bin .sub true 2 1) 0xFF)
      (given [(2, 0x1000), (3, 5)])) = some (5, 0xFFF) := by
  decide

/-- Section 2.8: refused, but for a piece that writes no general register. -/
theorem test_sbalu_conflict :
    refusal (exec (.sbalu 3 2 (.bin .add true 3 1) 0) base) = some (.registerConflict 0x73231100) ∧
    next (fun t => (t.mem.word 0x1000, t.hi)) (exec (.sbalu 3 2 (.toSpecial .hi false 3) 0)
      (given [(2, 0x1000), (3, 5)])) = some (5, 5) := by
  decide

/-- Section 2.8. -/
theorem test_sibalu :
    next (·.mem.word 0x1005) (exec (.sibalu 3 2 (.mov false 0 0) 4)
      (given [(2, 0x1000), (3, 9), (4, 5)])) = some 9 := by
  decide

/-- Section 2.8. -/
theorem test_ssbalu :
    next (·.mem.word 0x1001) (exec (.ssbalu 3 2 (.mov false 0 0) 2)
      (given [(2, 0x4006), (3, 0x11223344)])) = some 0x11223344 := by
  decide

/-- Section 2.8: a store, one into the program at 100, and one outside memory. -/
theorem test_std :
    next (·.mem.word 0x100) (exec (.std 1 0x100) (given [(1, 42)])) = some 42 ∧
    refusal (exec (.std 1 100) base) = some (.storeToCode 100) ∧
    fault (exec (.std 1 0x8000) base) = some (.badAddress 0x8000) := by
  decide

/-- The last word of the address space has the last four keys (R50); the bytes around it stay. -/
theorem test_store_to_the_top_word :
    next (fun t => (t.mem.word 0xFFFFFFFF, t.mem.word 0xFFFFFFFE, t.mem.wf))
      (exec (.std 1 0xFFFFFF) (holding 0xFFFFFFFE 7 (given [(1, 0x00010000)]))) = some (0x00010000, 7, true) := by
  decide

/-- Section 2.8. -/
theorem test_spcb :
    next (·.mem.word 0x7F0) (exec (.spcb 15 0) (given [(15, 0x7F0)])) = some 103 := by
  decide

/-- Section 2.8; the stored word is not changed by a piece that writes PC(current) (R228). -/
theorem test_spcalu :
    next (fun t => (t.mem.word 0x7F0, reg t 15)) (exec (.spcalu 15 (.bin .sub true 15 1) 0xFF)
      (given [(15, 0x7F1)])) = some (103, 0x7F0) ∧
    next (fun t => (t.mem.word 0x7F0, t.pc1)) (exec (.spcalu 15 (.toSpecial .pc true 9) 0)
      (given [(15, 0x7F0)])) = some (103, 9) := by
  decide

/-- Section 2.8. -/
theorem test_spc :
    next (·.mem.word 0x20) (exec (.spc 0x20) base) = some 103 := by
  decide

/-- Section 2.8. -/
theorem test_sts :
    next (·.mem.word 0x41) (exec (.sts 0x41) { base with suReg := 0x246 }) = some 0x246 := by
  decide

/-- Section 2.8: the address of the instruction executed before. -/
theorem test_savepc :
    next (·.mem.word 0x42) (exec (.savepc 0x42) base) = some 99 := by
  decide

/-! ### Sets and traps -/

/-- Section 2.9. -/
theorem test_scnd :
    next (reg · 2) (exec (.scnd .eq false 2 1) (given [(1, 7), (2, 7)])) = some 0xFFFFFFFF ∧
    next (reg · 2) (exec (.scnd .lt true 2 5) (given [(2, 0xFFFFFFFF)])) = some 0 := by
  decide

/-- Section 2.10, with the instruction at 57 in the place of 100. -/
theorem test_trap_taken :
    next (fun t => (t.pc0, t.pc1, t.pc2, t.pcm, t.suCur, t.draws)) (exec (.trap .eq true 4 0 5 false)
      (given [(4, 0)])) = some (0, 1, 2, 101, .trapped, 1) := by
  decide

/-- Section 2.10: the code is written, the other bits stay. -/
theorem test_trap_not_taken :
    next (fun t => (t.pc0, t.suReg)) (exec (.trap .eq true 4 0 0x400 true)
      { given [(4, 3)] with suReg := 0xFFFFFFFF }) = some (101, 0xFFFFF801) := by
  decide

/-- Section 2.10. -/
theorem test_trap_after_lds :
    refusal (exec (.trap .eq true 4 0 5 false) { base with ldsPrev := true })
      = some (.registerConflict 0xF3C4000A) := by
  decide

/-- Section 2.3. -/
theorem test_illegal_and_reserved :
    refusal (exec (.illegal 0x01E1101F) base) = some (.illegalInstruction 0x01E1101F) ∧
    refusal (exec (.reserved 0x01016E11) base) = some (.reservedOperation 0x01016E11) := by
  decide

/-- One step from reset: `LDI R2,100`. -/
theorem test_step_runs_a_placed_word :
    next (reg · 2) (step (State.reset.withFetchWord 32 0xC2000064)) = some 100 := by
  decide

/-! ### The statements' hypotheses can be met

For every statement with hypotheses, a state and operands that meet them, one clause after another. -/

/-- Hypotheses: well-formed, and no condition row. -/
theorem test_witness_DecodeOfEncode :
    Instr.wf (.alu23 (.bin .add false 12 0 0) (.shift .rol 1 31)) = true ∧
    ∀ c h, Instr.alu23 (.bin .add false 12 0 0) (.shift .rol 1 31) ≠ Instr.ofCond c h :=
  ⟨by decide, by intro c h; cases c <;> simp [Instr.ofCond]⟩

/-- Hypothesis of the last clause, for both names. -/
theorem test_witness_IllegalAndReservedWordsExact :
    decode 0xFD000000 = .illegal 0xFD000000 ∧ decode 0x01016E11 = .reserved 0x01016E11 := by
  decide

/-- Hypotheses of both clauses: the last row of the map. -/
theorem test_witness_OpcodeMapRows :
    (decode 0xFFFFFFFF).row = some ⟨0xFF000000, 0xFF000000⟩ ∧
    (⟨0xFF000000, 0xFF000000⟩ : MaskRow) ∈ opcodeRows ∧
    (0xFFFFFFFF : Word) &&& 0xFF000000 = 0xFF000000 ∧
    illegalWord 0xFFFFFFFF = false ∧ reservedWord 0xFFFFFFFF = false := by
  decide

/-- Hypotheses of both clauses: a fetch inside the program, at its ends, and one behind it. -/
theorem test_witness_StepRunsDecoded :
    codeAddr { base with pc0 := 0x60 } 0x60 = true ∧ codeAddr { base with pc0 := 0x6F } 0x6F = true ∧
    decode (base.mem.word 0x6F) = .alu23 Alu3.idle Alu2.idle ∧
    codeAddr { base with pc0 := 0x70 } 0x70 = false := by
  decide

/-- Hypothesis, on a memory that lists something. -/
theorem test_witness_PlacedWordRunsNext : (holding 0x300 0x01020304 base).mem.wf = true := by
  decide

/-- Hypotheses of both clauses. -/
theorem test_witness_MemoryReadsWhatWasWritten :
    (holding 0xFFFFFFFF 0x01020304 base).mem.wf = true ∧ 0 < 4 ∧ 3 < 4 := by
  decide

/-- Hypotheses: two memories that were written in different orders. -/
theorem test_witness_CanonicalMemoryIsUnique :
    (holding 5 7 (holding 9 8 base)).mem.wf = true ∧ (holding 9 8 (holding 5 7 base)).mem.wf = true ∧
    ∀ p, (holding 5 7 (holding 9 8 base)).mem.byte p = (holding 9 8 (holding 5 7 base)).mem.byte p :=
  ⟨by decide, by decide, fun p => congrArg (fun m => Memory.byte m p) (by decide)⟩

/-- The hypothesis of every statement on an ALU row alone in its word, where the instruction before
loaded R7: three registers, and a literal of that number. -/
theorem test_witness_ArithmeticResults :
    NotLoading ([0, 3, 2] ++ sourceRegs false 1) (afterLoad 7 base) ∧
    NotLoading ([0, 3, 2] ++ sourceRegs true 7) (afterLoad 7 base) ∧
    NotLoading ([0, 3] ++ sourceRegs false 1) (afterLoad 7 base) ∧
    NotLoading ([0, 3] ++ sourceRegs true 7) (afterLoad 7 base) := by
  decide

/-- As for `ArithmeticResults`. -/
theorem test_witness_LogicResults :
    NotLoading ([0, 15, 0] ++ sourceRegs false 15) (afterLoad 7 base) ∧
    NotLoading ([0, 0] ++ sourceRegs true 15) (afterLoad 7 base) := by
  decide

/-- As for `ArithmeticResults`, at the largest count. -/
theorem test_witness_CombinedShiftResults :
    NotLoading ([0, 3, 2] ++ sourceRegs false 1) (setLo (afterLoad 7 base) 31) ∧
    NotLoading ([0, 3] ++ sourceRegs true 7) (setLo (afterLoad 7 base) 0) := by
  decide

/-- Hypotheses of both forms. -/
theorem test_witness_ImmediateShiftResults :
    NotLoading [0, 3, 2] (afterLoad 7 base) ∧ NotLoading [0, 3] (afterLoad 7 base) := by
  decide

/-- Hypotheses of the clauses; `ic3` may name the loaded register in src2, which it does not read. -/
theorem test_witness_CharacterResults :
    NotLoading ([0, 3] ++ sourceRegs false 1) (afterLoad 7 base) ∧ NotLoading [2] (afterLoad 7 base) ∧
    NotLoading ([0, 3] ++ sourceRegs true 7) (afterLoad 7 base) := by
  decide

/-- Hypotheses of both forms. -/
theorem test_witness_MoveResults :
    NotLoading ([0, 3] ++ sourceRegs false 1) (afterLoad 7 base) ∧
    NotLoading ([0, 3] ++ sourceRegs true 7) (afterLoad 7 base) := by
  decide

/-- Hypotheses of the clauses; of the last one, for each of its four operations. -/
theorem test_witness_MovesFromHiAndLo :
    NotLoading [0, 3] (afterLoad 7 base) ∧
    (∃ t, exec (.alu23 (.toSpecial .msetup true 0 3) (.fromSpecial .hi true 4)) base = .next t) ∧
    (∃ t, exec (.alu23 (.toSpecial .mstep false 0 3) (.fromSpecial .hi true 4)) base = .next t) ∧
    (∃ t, exec (.alu23 (.toSpecial .umend true 0 3) (.fromSpecial .hi false 4)) base = .next t) ∧
    ∃ t, exec (.alu23 (.toSpecial .dstep false 0 3) (.fromSpecial .hi false 4)) base = .next t :=
  ⟨by decide, ⟨_, rfl⟩, ⟨_, rfl⟩, ⟨_, rfl⟩, ⟨_, rfl⟩⟩

/-- Hypotheses: supervisor state by TRAPPED, and by an SUreg word; the registers. -/
theorem test_witness_ApAndMaMoves :
    supervisor base = true ∧ supervisor { base with suCur := .enabled 1 } = true ∧
    NotLoading [0, 3] (afterLoad 7 base) ∧ NotLoading ([0] ++ sourceRegs false 3) (afterLoad 7 base) := by
  decide

/-- Hypotheses of both forms. -/
theorem test_witness_VariableShiftAndNotResults :
    NotLoading [0, 3, 2] (setLo (afterLoad 7 base) 0xFFFFFFFF) ∧
    NotLoading [0, 3] (setLo (afterLoad 7 base) 32) := by
  decide

/-- Hypotheses. -/
theorem test_witness_MovesToHiAndLo :
    NotLoading ([0] ++ sourceRegs false 3) (afterLoad 7 base) ∧
    NotLoading ([0] ++ sourceRegs true 7) (afterLoad 7 base) := by
  decide

/-- Hypotheses of the clauses. -/
theorem test_witness_PcMoves :
    NotLoading [0, 3] (afterLoad 7 base) ∧ (afterLoad 7 base).jd2Prev = false ∧
    NotLoading ([0] ++ sourceRegs false 3) (afterLoad 7 base) ∧
    NotLoading ([0] ++ sourceRegs false 3) { base with jd2Prev := true } := by
  decide

/-- Hypothesis. -/
theorem test_witness_MultiplySteps :
    NotLoading ([0] ++ sourceRegs false 3) (setMulDiv (afterLoad 7 base) ⟨0x7FFFFFFF, 2, true⟩) := by
  decide

/-- Hypothesis. -/
theorem test_witness_UnsignedEndAndDivideSteps :
    NotLoading ([0] ++ sourceRegs false 3) (setMulDiv (afterLoad 7 base) ⟨0x80000000, 2, true⟩) := by
  decide

/-- Hypotheses of the clauses: the largest dividend, by 1, by the largest divisor, and by 0. -/
theorem test_witness_ThirtyTwoStepsDivide :
    (0x7FFFFFFF : Word).toNat < 2 ^ 31 ∧ (0 < (1 : Word).toNat ∧ (1 : Word).toNat < 2 ^ 31) ∧
    (0 < (0x7FFFFFFF : Word).toNat ∧ (0x7FFFFFFF : Word).toNat < 2 ^ 31) ∧ (0 : Word) = 0 := by
  decide

/-- Hypotheses of both clauses: a privileged piece beside an access to PC(current), and two multiply
steps. -/
theorem test_witness_PackedPiecesRunInOrder :
    (alu3Privileged (.fromSpecial .pc false 3 0) || alu2Privileged (.toSpecial .ap false 2)) = true ∧
    supervisor (afterLoad 7 base) = true ∧
    NotLoading (alu3Regs (.fromSpecial .pc false 3 0) ++ alu2Regs (.toSpecial .ap false 2))
      (afterLoad 7 base) ∧
    (afterLoad 7 base).jd2Prev = false ∧
    ∃ t, exec (.alu23 (.toSpecial .mstep false 0 3) (.toSpecial .mstep true 3)) (afterLoad 7 base)
      = .next t :=
  ⟨by decide, by decide, by decide, by decide, ⟨_, rfl⟩⟩

/-- Hypotheses of the clauses. -/
theorem test_witness_IdlePieces :
    NotLoading [3, 4] (afterLoad 7 base) ∧
    (∃ t, exec (Instr.ofAlu3 (.mov true 5 15 13)) (afterLoad 7 base) = .next t) ∧
    ∃ t, exec (Instr.ofAlu2 (.not true 5)) (afterLoad 7 base) = .next t :=
  ⟨by decide, ⟨_, rfl⟩, ⟨_, rfl⟩⟩

/-- The hypothesis of the second clause, and both sides of the last. -/
theorem test_witness_ConditionTable :
    encodeCond .lt ^^^ encodeCond .ge = 1 ∧ encodeCond .ne ^^^ encodeCond .eq = 1 ∧
    decodeCond 13 = .listed .ne ∧ decodeCond 14 = .reserved ∧ decodeCond 15 = .reserved := by
  decide

/-- Hypotheses of both spellings, with the branch taken and not taken. -/
theorem test_witness_ConditionalBranches :
    Instr.ofCond .eq (.branch true 1 7 9) = .eq (.branch true 1 7 9) ∧
    NotLoading ([1] ++ sourceRegs true 7) (afterLoad 7 base) ∧ (afterLoad 7 base).jd2Prev = false ∧
    test .eq (source base true 0) (reg base 1) = true ∧
    test .eq (source base true 7) (reg base 1) = false := by
  decide

/-- Hypotheses of the clauses. -/
theorem test_witness_DirectJumps :
    (afterLoad 7 base).jd2Prev = false ∧ NotLoading [5] (afterLoad 7 base) := by
  decide

/-- Hypotheses: addresses at the ends of memory. -/
theorem test_witness_IndirectJumps :
    memAddr base ((0 : BitVec 24).signExtend 32) = true ∧
    memAddr base ((0xFFFFFF : BitVec 24).signExtend 32) = true ∧
    NotLoading [2] (afterLoad 7 (given [(2, 0x8000)])) ∧
    memAddr base (reg (given [(2, 0x8000)]) 2 + (0xFFFFF : BitVec 20).signExtend 32) = true := by
  decide

/-- Hypotheses, with a privileged piece and with one that writes PC(current). -/
theorem test_witness_IndirectJumpWithPiece :
    alu2Privileged (.toSpecial .ap false 2) = true ∧ supervisor base = true ∧
    alu2Privileged (.toSpecial .pc false 2) = false ∧
    NotLoading ([15] ++ alu2Regs (.toSpecial .pc false 2)) (afterLoad 7 (given [(15, 0x7FFF)])) ∧
    memAddr base (reg (given [(15, 0x7FFF)]) 15 + (0 : BitVec 8).signExtend 32) = true := by
  decide

/-- Hypotheses. -/
theorem test_witness_JumpAndSetup :
    supervisor base = true ∧ memAddr base ((0x10 : BitVec 24).signExtend 32) = true := by
  decide

/-- Hypotheses of both clauses: the last word below the hole, and the first above it. -/
theorem test_witness_PlainLoads :
    NotLoading [3, 2] (afterLoad 7 (given [(2, 0x8000)])) ∧
    memAddr base (reg (given [(2, 0x8000)]) 2 + (0xFFFFF : BitVec 20).signExtend 32) = true ∧
    NotLoading [3] (afterLoad 7 base) ∧
    memAddr base ((0xFFFF00 : BitVec 24).signExtend 32) = true := by
  decide

/-- Hypotheses of the clauses; the base -3 shifted by 1 is -2, and by 15 is -1. -/
theorem test_witness_LoadsWithPiece :
    NotLoading ([3, 2] ++ alu2Regs (.bin .add true 2 7)) (afterLoad 7 base) ∧
    alu2Privileged (.bin .add true 2 7) = false ∧
    memAddr base (reg (given [(2, 0x1000)]) 2 + (0x80 : BitVec 8).signExtend 32) = true ∧
    NotLoading [4] (afterLoad 7 base) ∧
    memAddr base (reg (given [(2, 0x7FFF), (4, 0x8000)]) 2 + reg (given [(2, 0x7FFF), (4, 0xFFFF8000)]) 4)
      = true ∧
    (0xFFFFFFFE : Word).toInt = (reg (given [(2, 0xFFFFFFFD)]) 2).toInt / 2 ^ (1 : BitVec 4).toNat ∧
    memAddr base 0xFFFFFFFE = true ∧
    (0xFFFFFFFF : Word).toInt = (reg (given [(2, 0xFFFFFFFD)]) 2).toInt / 2 ^ (15 : BitVec 4).toNat ∧
    memAddr base 0xFFFFFFFF = true := by
  decide

/-- Hypothesis. -/
theorem test_witness_LoadImmediate : NotLoading [3] (afterLoad 7 base) := by
  decide

/-- Hypotheses of both clauses, beside the program and at the end of memory. -/
theorem test_witness_PlainStores :
    base.mem.wf = true ∧ NotLoading [3, 2] (afterLoad 7 base) ∧
    memAddr base (reg (given [(2, 0x60)]) 2 + (0xFFFFF : BitVec 20).signExtend 32) = true ∧
    codeAddr base (reg (given [(2, 0x60)]) 2 + (0xFFFFF : BitVec 20).signExtend 32) = false ∧
    NotLoading [3] (afterLoad 7 base) ∧
    memAddr base ((0x70 : BitVec 24).signExtend 32) = true ∧
    codeAddr base ((0x70 : BitVec 24).signExtend 32) = false := by
  decide

/-- Hypotheses of the clauses; the base -3 shifted by 1 is -2. -/
theorem test_witness_StoresWithPiece :
    base.mem.wf = true ∧ alu2Privileged (.bin .sub true 2 1) = false ∧
    NotLoading ([3, 2] ++ alu2Regs (.bin .sub true 2 1)) (afterLoad 7 base) ∧
    alu2Dst (.bin .sub true 2 1) ≠ some 3 ∧
    memAddr base (reg (given [(2, 0x1000)]) 2 + (0xFF : BitVec 8).signExtend 32) = true ∧
    codeAddr base (reg (given [(2, 0x1000)]) 2 + (0xFF : BitVec 8).signExtend 32) = false ∧
    NotLoading [4] (afterLoad 7 base) ∧
    memAddr base (reg (given [(2, 0x1000), (4, 5)]) 2 + reg (given [(2, 0x1000), (4, 5)]) 4) = true ∧
    codeAddr base (reg (given [(2, 0x1000), (4, 5)]) 2 + reg (given [(2, 0x1000), (4, 5)]) 4) = false ∧
    (0xFFFFFFFE : Word).toInt = (reg (given [(2, 0xFFFFFFFD)]) 2).toInt / 2 ^ (1 : BitVec 4).toNat ∧
    memAddr base 0xFFFFFFFE = true ∧ codeAddr base 0xFFFFFFFE = false := by
  decide

/-- Hypotheses of the clauses. -/
theorem test_witness_StorePcInstructions :
    base.mem.wf = true ∧ memAddr base ((0x20 : BitVec 24).signExtend 32) = true ∧
    codeAddr base ((0x20 : BitVec 24).signExtend 32) = false ∧ NotLoading [15] (afterLoad 7 base) ∧
    memAddr base (reg (given [(15, 0x7F0)]) 15 + (0 : BitVec 20).signExtend 32) = true ∧
    codeAddr base (reg (given [(15, 0x7F0)]) 15 + (0 : BitVec 20).signExtend 32) = false ∧
    alu2Privileged (.bin .sub true 15 1) = false ∧
    NotLoading ([15] ++ alu2Regs (.bin .sub true 15 1)) (afterLoad 7 base) ∧
    memAddr base (reg (given [(15, 0x7F0)]) 15 + (0xFF : BitVec 8).signExtend 32) = true ∧
    codeAddr base (reg (given [(15, 0x7F0)]) 15 + (0xFF : BitVec 8).signExtend 32) = false := by
  decide

/-- Hypotheses of both clauses; the load may also read the program. -/
theorem test_witness_SystemTransfers :
    supervisor base = true ∧ memAddr base ((0x64 : BitVec 24).signExtend 32) = true ∧
    base.mem.wf = true ∧ memAddr base ((0x40 : BitVec 24).signExtend 32) = true ∧
    codeAddr base ((0x40 : BitVec 24).signExtend 32) = false := by
  decide

/-- Hypotheses of both spellings. -/
theorem test_witness_SetConditionally :
    Instr.ofCond .ne (.set true 2 7) = .ne (.set true 2 7) ∧
    NotLoading ([2] ++ sourceRegs true 7) (afterLoad 7 base) ∧
    NotLoading ([2] ++ sourceRegs false 1) (afterLoad 7 base) := by
  decide

/-- Hypotheses of both spellings: the literal 7 is not the value of R4. -/
theorem test_witness_TrapNotTaken :
    Instr.ofCond .eq (.trap true 4 7 0x400 true) = .eq (.trap true 4 7 0x400 true) ∧
    NotLoading ([4] ++ sourceRegs true 7) (afterLoad 7 base) ∧ (afterLoad 7 base).ldsPrev = false ∧
    test .eq (source base true 7) (reg base 4) = false := by
  decide

/-- Hypotheses of both spellings: R3 and R4 are equal. -/
theorem test_witness_TrapTaken :
    Instr.ofCond .eq (.trap false 4 3 0x3FF false) = .eq (.trap false 4 3 0x3FF false) ∧
    NotLoading ([4] ++ sourceRegs false 3) (afterLoad 7 (inUser base)) ∧
    (afterLoad 7 (inUser base)).ldsPrev = false ∧
    test .eq (source (inUser base) false 3) (reg (inUser base) 4) = true := by
  decide

/-- Hypotheses, for a trap taken in user state. -/
theorem test_witness_SavepcAfterTrap :
    (inUser base).mem.wf = true ∧ test .eq (source (inUser base) true 0) (reg (inUser base) 4) = true ∧
    memAddr (inUser base) ((0x42 : BitVec 24).signExtend 32) = true ∧
    codeAddr (inUser base) ((0x42 : BitVec 24).signExtend 32) = false ∧
    ∃ t, exec (.trap .eq true 4 0 5 false) (inUser base) = .next t :=
  ⟨by decide, by decide, by decide, by decide, ⟨_, rfl⟩⟩

/-- Hypotheses: JINDSS and an instruction in its first delay slot. -/
theorem test_witness_SettingAfterReturn :
    ∃ t u, exec (.jindss 0x10) base = .next t ∧ exec (.mov2 true 5 15) t = .next u ∧
      Instr.isTrap (.mov2 true 5 15) = false :=
  ⟨_, _, rfl, rfl, rfl⟩

/-- The hypothesis on both sides: a jump, and a taken trap. -/
theorem test_witness_OnlyTrapsSkipTheNextInstruction :
    (∃ t, exec (.jdrct 0x400) base = .next t) ∧
    ∃ t, exec (.trap .eq true 4 0 5 false) base = .next t :=
  ⟨⟨_, rfl⟩, ⟨_, rfl⟩⟩

/-- Hypotheses: a store at the last word before the program, at its first, and outside memory. -/
theorem test_witness_AccessStopsExact :
    Instr.legal (.std 1 0x60) = true ∧ ¬ Unprivileged (.std 1 0x60) base ∧
    NotLoading (Instr.uses (.std 1 0x60)) (afterLoad 7 base) ∧ ¬ PcConflict (.std 1 0x60) base ∧
    Instr.conflicts (.std 1 0x60) base = false ∧
    Instr.access (.std 1 0x5F) base = .store 0x5F ∧ codeAddr base 0x5F = false ∧
    Instr.access (.std 1 0x60) base = .store 0x60 ∧ memAddr base 0x60 = true ∧
    codeAddr base 0x60 = true ∧ Instr.access (.std 1 0x8000) base = .store 0x8000 ∧
    memAddr base 0x8000 = false := by
  decide

/-- Each refusal the exact statements speak of is met by some instruction. -/
theorem test_witness_HazardRefusalsExact :
    ¬ NotLoading (Instr.uses (.add2 false 2 1)) (afterLoad 1 base) ∧
    PcConflict (.bucnd 0) { base with jd2Prev := true } ∧
    Instr.conflicts (.sbalu 3 2 (.bin .add true 3 1) 0) base = true ∧
    Instr.conflicts (.trap .eq true 4 0 5 false) { base with ldsPrev := true } = true ∧
    Unprivileged (.lds 0x40) (inUser base) := by
  decide

/-- Both sides of the equivalence are met, by every family. -/
theorem test_witness_CompletesExactlyWhenReady :
    (∃ t, exec (.sbi 3 2 8) (given [(2, 0x1000)]) = .next t) ∧
    (∃ t, exec (.alu23 (.bin .add false 3 2 1) (.not false 4)) base = .next t) ∧
    ∃ t, exec (.lds 0x40) base = .next t :=
  ⟨⟨_, rfl⟩, ⟨_, rfl⟩, ⟨_, rfl⟩⟩

/-- Hypotheses: the invariant, and a step. -/
theorem test_witness_StepKeepsInv : Inv (holding 0x300 7 base) ∧ ∃ t, step (holding 0x300 7 base) = .next t :=
  ⟨by decide, ⟨_, rfl⟩⟩

/-- Hypotheses: the program that stands in memory, and a step. -/
theorem test_witness_StepKeepsProgram :
    ProgramIs base.memDomain base.codeDomain (holding 100 0xC2000064 base).mem.word
      (holding 100 0xC2000064 base) ∧
    ∃ t, step (holding 100 0xC2000064 base) = .next t :=
  ⟨⟨by decide, rfl, rfl, fun _ _ => rfl⟩, ⟨_, rfl⟩⟩

/-- Hypotheses of both clauses: a store, a byte beside it on either side, and a load. -/
theorem test_witness_MemoryChangesOnlyAtTheStore :
    base.mem.wf = true ∧ (∃ t, exec (.std 1 0x70) base = .next t) ∧
    Instr.access (.std 1 0x70) base = .store 0x70 ∧
    (4 * 0x70 - 1) / 4 ≠ (0x70 : Word).toNat ∧ (4 * 0x70 + 4) / 4 ≠ (0x70 : Word).toNat ∧
    (∃ t, exec (.ldl 1 0x70) base = .next t) ∧ ∀ a, Instr.access (.ldl 1 0x70) base ≠ .store a :=
  ⟨by decide, ⟨_, rfl⟩, by decide, by decide, by decide, ⟨_, rfl⟩, by intro a h; cases h⟩

/-- Hypotheses: a taken trap in user state, and an instruction that is none. -/
theorem test_witness_UserStateKeepsSystemState :
    supervisor (inUser base) = false ∧
    (∃ t, exec (.trap .eq true 4 0 5 false) (inUser base) = .next t) ∧
    ∃ t, exec (.mov2 true 5 15) (inUser base) = .next t :=
  ⟨by decide, ⟨_, rfl⟩, ⟨_, rfl⟩⟩

/-- Hypotheses of the three clauses. -/
theorem test_witness_UserStateCannotReadSystemState :
    supervisor (inUser base) = false ∧
    (∃ t, exec (.mov2 true 5 15) (inUser base) = .next t) ∧
    exec (.ldl 1 0x8000) (inUser base) = .fault (.badAddress 0x8000) ∧
    exec (.std 1 0x60) (inUser base) = .refused (.storeToCode 0x60) :=
  ⟨by decide, ⟨_, rfl⟩, rfl, rfl⟩

/-- Hypotheses: each of the writers changes what it writes, a taken trap the setting of user state. -/
theorem test_witness_SurpriseRegisterWriters :
    next (·.suReg) (exec (.lds 0x40) (holding 0x40 9 base)) = some 9 ∧ base.suReg ≠ 9 ∧
    next (·.suNxt) (exec (.jindss 0x10) base) = some (.enabled 0) ∧ base.suNxt ≠ .enabled 0 ∧
    Instr.takesTrap (.trap .eq true 4 0 5 false) (inUser base) = true ∧
    next (·.suNxt) (exec (.trap .eq true 4 0 5 false) (inUser base)) = some .trapped ∧
    (inUser base).suNxt ≠ .trapped := by
  decide

/-- `Instr.takesTrap` under both spellings, of a TRAP whose test is false, and of no TRAP. -/
theorem test_takes_trap :
    Instr.takesTrap (.eq (.trap true 4 0 5 false)) base = true ∧
    Instr.takesTrap (.ne (.trap true 4 0 5 false)) base = false ∧
    Instr.takesTrap (.trap .eq true 4 1 5 false) base = false ∧
    Instr.takesTrap (.bcnd .eq true 4 0 9) base = false := by
  decide

end Sys2Proof.Tests
end

section
/-! PROOFS. One step is the fetch, and then the meaning of the fetched word (00_scope.md R8). The rules
for `fetch` and `step` that say where a step stops stand beside `fetch_eq_next` and `step_eq_next`, which
say when it goes on. -/

namespace Sys2Proof.Machine

variable {s : State}

theorem fetch_of_codeAddr_eq_false (h : codeAddr s s.pc0 = false) :
    fetch s = .fault (.badAddress s.pc0) := by
  simp [fetch, h]

/-- After a fetch that answers, a step is exactly the meaning of the word: also where that faults or is
refused, which `step_eq_next` does not say. -/
theorem step_of_fetch_eq_next {w : Word} (h : fetch s = .next w) : step s = exec (decode w) s := by
  rw [step, h, andThen_next]

theorem step_of_fetch_eq_fault {r : Fault} (h : fetch s = .fault r) : step s = .fault r := by
  rw [step, h, andThen_fault]

/-- Settles O6: the two clauses are the two answers of the fetch. -/
theorem stepRunsDecoded : Obligations.StepRunsDecoded := by
  intro s
  constructor
  · rintro i hcode rfl
    exact step_of_fetch_eq_next (fetch_eq_next.2 ⟨hcode, rfl⟩)
  · intro hcode
    exact step_of_fetch_eq_fault (fetch_of_codeAddr_eq_false hcode)

end Sys2Proof.Machine
end

section
/-! PROOFS. The canonical form of memory is unique (log entry 3). -/

namespace Sys2Proof.Machine

/-- The canonical form of a memory with a first entry, part by part. -/
theorem wfFrom_cons {low k : Nat} {v : Byte} {m : Memory} :
    Memory.wfFrom low ((k, v) :: m) = true ↔
      low ≤ k ∧ k < keyLimit ∧ v ≠ unlistedByte ∧ Memory.wfFrom (k + 1) m = true := by
  simp [Memory.wfFrom, and_assoc]

@[simp] theorem byte_cons_same (k : Nat) (v : Byte) (m : Memory) :
    Memory.byte ((k, v) :: m) k = v := if_pos rfl

theorem byte_cons_other {k p : Nat} (v : Byte) (m : Memory) (h : k ≠ p) :
    Memory.byte ((k, v) :: m) p = m.byte p := if_neg h

/-- A canonical memory lists nothing below its bound. -/
theorem le_of_byte_ne {low p : Nat} {m : Memory} (hm : Memory.wfFrom low m = true)
    (hp : m.byte p ≠ unlistedByte) : low ≤ p :=
  Nat.le_of_not_lt fun hlt => hp (byte_of_lt hm hlt)

/-- Canonical memories whose bytes agree have the same entries: their first keys cannot differ,
since the smaller one would be unlisted in the other memory. -/
theorem eq_of_wfFrom_of_byte_eq {low : Nat} {m n : Memory} (hm : Memory.wfFrom low m = true)
    (hn : Memory.wfFrom low n = true) (heq : ∀ p, Memory.byte m p = Memory.byte n p) : m = n := by
  induction m generalizing low n with
  | nil =>
    cases n with
    | nil => rfl
    | cons d n =>
      obtain ⟨-, -, hw, -⟩ := wfFrom_cons.1 hn
      exact absurd ((byte_cons_same ..).symm.trans (heq d.1).symm) hw
  | cons c m ih =>
    obtain ⟨k, v⟩ := c
    obtain ⟨-, hk, hv, hm'⟩ := wfFrom_cons.1 hm
    cases n with
    | nil => exact absurd ((byte_cons_same ..).symm.trans (heq k)) hv
    | cons d n =>
      obtain ⟨l, w⟩ := d
      obtain ⟨-, hl, hw, hn'⟩ := wfFrom_cons.1 hn
      have hlk : l ≤ k :=
        le_of_byte_ne (wfFrom_cons.2 ⟨le_rfl, hl, hw, hn'⟩) (by rwa [← heq, byte_cons_same])
      have hkl : k ≤ l :=
        le_of_byte_ne (wfFrom_cons.2 ⟨le_rfl, hk, hv, hm'⟩) (by rwa [heq, byte_cons_same])
      obtain rfl : k = l := by omega
      obtain rfl : v = w := by simpa using heq k
      have htail : ∀ p, Memory.byte m p = Memory.byte n p := by
        intro p
        by_cases hp : p < k + 1
        · rw [byte_of_lt hm' hp, byte_of_lt hn' hp]
        · simpa [byte_cons_other _ _ (show k ≠ p by omega)] using heq p
      rw [ih hm' hn' htail]

/-- Settles O9: the uniqueness from every bound, at the bound 0. -/
theorem canonicalMemoryIsUnique : Obligations.CanonicalMemoryIsUnique :=
  fun _ _ hm hn heq => eq_of_wfFrom_of_byte_eq hm hn heq

end Sys2Proof.Machine
end

section
/-! PROOFS. The state after reset (70_reset_and_hazards.md R280; log entries 1, 2, 3, 4, 8, 9). -/

namespace Sys2Proof.Machine

@[simp] theorem reg_reset (n : Reg) : reg State.reset n = 0 := by
  simp [reg, State.reset, Config.resetWord]

/-- Every word of a memory that lists nothing is four unlisted bytes (log entry 3). -/
theorem word_nil (a : Word) : Memory.word [] a = 0 := by
  simp [Memory.word, Memory.byte, unlistedByte]

/-- The one span of reset's `MemDomain` holds every address (log entry 9). -/
theorem memAddr_reset (a : Word) : memAddr State.reset a = true := by
  simp only [memAddr, State.reset, inSpans, List.any_cons, List.any_nil, Bool.or_false,
    Bool.and_eq_true, decide_eq_true_eq]
  bv_omega

/-- With nothing placed there is no program to fetch from (log entry 4). -/
theorem step_reset : step State.reset = .fault (.badAddress Config.entry) :=
  step_of_fetch_eq_fault (fetch_of_codeAddr_eq_false rfl)

theorem inv_reset : Inv State.reset := by
  refine ⟨wf_nil, ?_, ?_⟩
  · intro h
    exact absurd rfl h
  · nofun

/-- Settles O53: the fields as `State.reset` lists them, with the facts above about its registers,
its memory, its domains and its first step. -/
theorem resetState : Obligations.ResetState := by
  refine ⟨inv_reset, reg_reset, rfl, rfl, rfl, rfl, rfl, rfl, rfl, rfl, rfl, rfl, rfl, rfl, rfl,
    rfl, rfl, word_nil, rfl, step_reset, rfl, rfl, rfl, memAddr_reset, ?_⟩
  exact ⟨rfl, rfl, rfl⟩

end Sys2Proof.Machine
end

section
/-! PROOFS. JINDSS, the return from a trap (42_control.md R180; 60_exceptions.md R263). -/

namespace Sys2Proof.Machine

/-- What JINDSS leaves of a state: the address formed, SUreg enabled in SX, the jump in OF. -/
def afterJindss (address : BitVec 24) (s : State) : State :=
  jumpD2 (enableSu (formAddress (advance s) (.direct address)) s.suReg)
    (s.mem.word (sext address))

/-- JINDSS completes in supervisor state, at an address that holds memory. -/
theorem execJindss_eq_next {address : BitVec 24} {s t : State} :
    execJindss address s = .next t ↔
      supervisor s = true ∧ memAddr s (sext address) = true ∧ afterJindss address s = t := by
  simp only [execJindss, issue_eq_next, jumpThroughMar_eq_next]
  constructor
  · rintro ⟨hsup, -, -, -, hmem, rfl⟩
    exact ⟨hsup trivial, hmem, rfl⟩
  · rintro ⟨hsup, hmem, rfl⟩
    exact ⟨fun _ => hsup, loadPending_eq_false.2 nofun, nofun, trivial, hmem, rfl⟩

/-- Beside the sequencing state, JINDSS changes MAR and Disp. -/
theorem afterJindss_frame (address : BitVec 24) (s : State) :
    OnlyChanges { mar := true, disp := true } s (afterJindss address s) where
  regs _ _ := rfl
  bytes _ _ := rfl
  hi _ := rfl
  lo _ := rfl
  db _ := rfl
  ap _ := rfl
  ma _ := rfl
  suReg _ := rfl
  mar := nofun
  disp := nofun
  pcp1 _ := rfl
  draws _ := rfl
  memDomain := rfl
  codeDomain := rfl
  supWords := rfl

/-- Settles O34: `execJindss_eq_next`, with each field of the state it names. -/
theorem jumpAndSetup : Obligations.JumpAndSetup := by
  intro address s a hsup hmem
  exact ⟨afterJindss address s, execJindss_eq_next.2 ⟨hsup, hmem, rfl⟩,
    rfl, rfl, rfl, rfl, rfl, rfl, rfl, rfl, afterJindss_frame address s, rfl, rfl, rfl⟩

end Sys2Proof.Machine
end

section
/-! PROOFS. The meanings of the instructions, by their shape: the 110 constructors have some two
dozen meanings, and a proof about `exec` is a case for each of these. -/

namespace Sys2Proof.Machine

/-- An ALU23 word under any of its rows runs its two pieces (30_encoding.md R72, R89). -/
theorem exec_of_packing {i : Instr} {p3 : Alu3} {p2 : Alu2} (h : i.packing = some (p3, p2)) :
    exec i = packed p3 p2 := by
  cases i <;> cases h <;> rfl

/-- A branch, a trap or a set means the same under either spelling (42_control.md R172). -/
theorem exec_of_condition {i : Instr} {c : Cond} {h : CondHost} (hi : i.condition = some (c, h)) :
    exec i = conditional c h := by
  cases i <;> cases hi <;> rfl

/-- The meaning `f` of an instruction `i`, by its shape, with what the shape says of `i`: its
pieces, its condition, the register it loads and the address it accesses. -/
inductive Meaning : (i : Instr) → (f : State → Result) → Prop
  | packed {i p3 p2} (h : i.packing = some (p3, p2)) : Meaning i (packed p3 p2)
  | branch {i c imm src2 src1 offset} (h : i.condition = some (c, .branch imm src2 src1 offset)) :
      Meaning i (branchOn c imm src2 src1 offset)
  | trap {i c imm src2 src1 code bit0} (h : i.condition = some (c, .trap imm src2 src1 code bit0)) :
      Meaning i (trapOn c imm src2 src1 code bit0)
  | set {i c imm dst src} (h : i.condition = some (c, .set imm dst src)) :
      Meaning i (setOn c imm dst src)
  | load {i dst a} (h : i.loads = some dst) (ha : ∀ s, i.access s = .load (addressOf s a)) :
      Meaning i (loadPlain (encode i) dst a)
  | loadWithAlu2 {i dst a p} (h : i.loads = some dst)
      (ha : ∀ s, i.access s = .load (addressOf s a)) :
      Meaning i (loadWithAlu2 (encode i) dst a p)
  | store {i st a} (ha : ∀ s, i.access s = .store (addressOf s a)) :
      Meaning i (storePlain (encode i) st a)
  | storeWithAlu2 {i st a p} (ha : ∀ s, i.access s = .store (addressOf s a)) :
      Meaning i (storeWithAlu2 (encode i) st a p)
  | ldi dst data : Meaning (.ldi dst data) (execLdi dst data)
  | bucnd offset : Meaning (.bucnd offset) (execBucnd offset)
  | jbase base offset : Meaning (.jbase base offset) (execJbase base offset)
  | jdrct address : Meaning (.jdrct address) (execJdrct address)
  | jbind base offset : Meaning (.jbind base offset) (execJbind base offset)
  | jibalu base p offset : Meaning (.jibalu base p offset) (execJibalu base p offset)
  | jind address : Meaning (.jind address) (execJind address)
  | spcb base offset : Meaning (.spcb base offset) (execSpcb base offset)
  | spcalu base p offset : Meaning (.spcalu base p offset) (execSpcalu base p offset)
  | spc address : Meaning (.spc address) (execSpc address)
  | lds address : Meaning (.lds address) (execLds address)
  | sts address : Meaning (.sts address) (execSts address)
  | savepc address : Meaning (.savepc address) (execSavepc address)
  | jindss address : Meaning (.jindss address) (execJindss address)
  | illegal word : Meaning (.illegal word) (execIllegal word)
  | reserved word : Meaning (.reserved word) (execReserved word)

theorem meaning_of_packing {i : Instr} {q : Alu3 × Alu2} (h : i.packing = some q) :
    Meaning i (exec i) := by
  obtain ⟨p3, p2⟩ := q
  rw [exec_of_packing h]
  exact .packed h

theorem meaning_of_condition {i : Instr} {q : Cond × CondHost} (hi : i.condition = some q) :
    Meaning i (exec i) := by
  obtain ⟨c, h⟩ := q
  rw [exec_of_condition hi]
  cases h with
  | branch => exact .branch hi
  | trap => exact .trap hi
  | set => exact .set hi

/-- Every instruction has one of the meanings. -/
theorem exec_meaning (i : Instr) : Meaning i (exec i) := by
  cases hp : i.packing with
  | some => exact meaning_of_packing hp
  | none =>
  cases hc : i.condition with
  | some => exact meaning_of_condition hc
  | none =>
  cases i with
  | lbi => exact .load rfl fun _ => rfl
  | ldl => exact .load rfl fun _ => rfl
  | lbalu => exact .loadWithAlu2 rfl fun _ => rfl
  | libalu => exact .loadWithAlu2 rfl fun _ => rfl
  | lsbalu => exact .loadWithAlu2 rfl fun _ => rfl
  | sbi => exact .store fun _ => rfl
  | std => exact .store fun _ => rfl
  | sbalu => exact .storeWithAlu2 fun _ => rfl
  | sibalu => exact .storeWithAlu2 fun _ => rfl
  | ssbalu => exact .storeWithAlu2 fun _ => rfl
  | ldi => exact .ldi ..
  | bucnd => exact .bucnd ..
  | jbase => exact .jbase ..
  | jdrct => exact .jdrct ..
  | jbind => exact .jbind ..
  | jibalu => exact .jibalu ..
  | jind => exact .jind ..
  | spcb => exact .spcb ..
  | spcalu => exact .spcalu ..
  | spc => exact .spc ..
  | lds => exact .lds ..
  | sts => exact .sts ..
  | savepc => exact .savepc ..
  | jindss => exact .jindss ..
  | illegal => exact .illegal ..
  | reserved => exact .reserved ..
  | _ => cases hp <;> cases hc

end Sys2Proof.Machine
end

section
/-! PROOFS. What a completed instruction does to the sequencing and to the Surprise register and
setting (10_state.md R25, R26, R37 to R39): all but LDS, JINDSS and TRAP leave these as the advance
has them. -/

namespace Sys2Proof.Machine

/-- The next address, `pcm`, the Surprise settings and SUreg are the same. -/
structure KeepsFlow (t u : State) : Prop where
  pc0 : u.pc0 = t.pc0
  pcm : u.pcm = t.pcm
  suCur : u.suCur = t.suCur
  suNxt : u.suNxt = t.suNxt
  suReg : u.suReg = t.suReg

theorem KeepsFlow.trans {t u v : State} (h : KeepsFlow t u) (k : KeepsFlow u v) : KeepsFlow t v :=
  ⟨k.pc0.trans h.pc0, k.pcm.trans h.pcm, k.suCur.trans h.suCur, k.suNxt.trans h.suNxt,
   k.suReg.trans h.suReg⟩

theorem PieceKeeps.flow {t u : State} (h : PieceKeeps t u) : KeepsFlow t u :=
  ⟨h.pc0, h.pcm, h.suCur, h.suNxt, h.suReg⟩

theorem setReg_keepsFlow (t : State) (r : Reg) (v : Word) : KeepsFlow t (setReg t r v) :=
  (setReg_keeps t r v).flow

theorem runAlu2_keepsFlow (p : Alu2) (t : State) : KeepsFlow t (runAlu2 p t) :=
  (runAlu2_keeps p t).flow

theorem setDisp_keepsFlow (t : State) (v : Word) : KeepsFlow t (setDisp t v) := by
  constructor <;> rfl

theorem setPcp1_keepsFlow (t : State) (v : Word) : KeepsFlow t (setPcp1 t v) := by
  constructor <;> rfl

theorem jumpD1_keepsFlow (t : State) (v : Word) : KeepsFlow t (jumpD1 t v) := by
  constructor <;> rfl

theorem jumpD2_keepsFlow (t : State) (v : Word) : KeepsFlow t (jumpD2 t v) := by
  constructor <;> rfl

theorem loadReg_keepsFlow (t : State) (r : Reg) (v : Word) : KeepsFlow t (loadReg t r v) := by
  constructor <;> rfl

theorem setMem_keepsFlow (t : State) (m : Memory) : KeepsFlow t (setMem t m) := by
  constructor <;> rfl

theorem formAddress_keepsFlow (t : State) (a : Address) : KeepsFlow t (formAddress t a) := by
  cases a <;> constructor <;> rfl

theorem memWrite_keepsFlow {t u : State} {a v : Word} (h : memWrite t a v = .next u) :
    KeepsFlow t u := by
  obtain ⟨-, -, rfl⟩ := memWrite_eq_next.1 h
  exact setMem_keepsFlow ..

theorem jumpThroughMar_keepsFlow {t u : State} (h : jumpThroughMar t = .next u) :
    KeepsFlow t u := by
  obtain ⟨-, rfl⟩ := jumpThroughMar_eq_next.1 h
  exact jumpD2_keepsFlow ..

/-- An instruction that goes on has completed its stages. -/
theorem stages_of_issue {u : Uses} {s t : State} {stages : State → Result}
    (h : issue u s stages = .next t) : stages (advance s) = .next t := by
  obtain ⟨-, -, -, -, hstages⟩ := issue_eq_next.1 h
  exact hstages

/-- The state after the OD stage of a TRAP: its code is in Disp and in SUreg (R244). -/
def afterTrapCode (code : BitVec 11) (s : State) : State :=
  setTrapCode (setDisp (advance s) (sext code)) (sext code)

/-- How an instruction can have completed, as far as the sequencing and the Surprise register and
setting go: the three that do something to these, and every other one. -/
inductive Completion (i : Instr) (s : State) : (t : State) → Prop
  | plain {t} (h : KeepsFlow (advance s) t) : Completion i s t
  | lds {address v} (hi : i = .lds address) (hsup : supervisor s = true) :
      Completion i s (loadSu (formAddress (advance s) (.direct address)) v)
  | jindss {address} (hi : i = .jindss address) (hsup : supervisor s = true) :
      Completion i s (afterJindss address s)
  | trapNotTaken {code} (hi : i.isTrap = true) : Completion i s (afterTrapCode code s)
  | trapTaken {code} (hi : i.isTrap = true) (htest : i.takesTrap s = true) :
      Completion i s (takeTrap (afterTrapCode code s))

theorem isTrap_of_condition {i : Instr} {c : Cond} {imm : Bool} {src2 src1 : Reg}
    {code : BitVec 11} {bit0 : Bool} (h : i.condition = some (c, .trap imm src2 src1 code bit0)) :
    i.isTrap = true := by
  simp [Instr.isTrap, h]

theorem takesTrap_of_condition {i : Instr} {c : Cond} {imm : Bool} {src2 src1 : Reg}
    {code : BitVec 11} {bit0 : Bool} (h : i.condition = some (c, .trap imm src2 src1 code bit0))
    (s : State) : i.takesTrap s = test c (source s imm src1) (reg s src2) := by
  simp [Instr.takesTrap, h]

theorem completion_of_trapOn {i : Instr} {c : Cond} {imm : Bool} {src2 src1 : Reg}
    {code : BitVec 11} {bit0 : Bool} {s t : State}
    (hi : i.condition = some (c, .trap imm src2 src1 code bit0))
    (h : trapOn c imm src2 src1 code bit0 s = .next t) : Completion i s t := by
  obtain ⟨-, -, rfl⟩ := trapOn_eq_next.1 h
  dsimp only
  split
  next htest =>
    exact .trapTaken (isTrap_of_condition hi) ((takesTrap_of_condition hi s).trans htest)
  next => exact .trapNotTaken (isTrap_of_condition hi)

theorem completion_of_execLds {address : BitVec 24} {s t : State}
    (h : execLds address s = .next t) : Completion (.lds address) s t := by
  obtain ⟨hsup, -, -, -, hstages⟩ := issue_eq_next.1 h
  obtain ⟨v, -, hv⟩ := andThen_eq_next.1 hstages
  cases hv
  exact .lds rfl (hsup rfl)

theorem completion_of_execJindss {address : BitVec 24} {s t : State}
    (h : execJindss address s = .next t) : Completion (.jindss address) s t := by
  obtain ⟨hsup, -, rfl⟩ := execJindss_eq_next.1 h
  exact .jindss rfl hsup

/-- The state after the OD stage of a conditional branch: its destination is in PC(+1) (R173). -/
def afterDestination (offset : BitVec 12) (s : State) : State :=
  setPcp1 (setDisp (advance s) (sext offset)) (s.pc1 + sext offset)

theorem afterDestination_keepsFlow (offset : BitVec 12) (s : State) :
    KeepsFlow (advance s) (afterDestination offset s) :=
  (setDisp_keepsFlow ..).trans (setPcp1_keepsFlow ..)

theorem branchOn_keepsFlow {c : Cond} {imm : Bool} {src2 src1 : Reg} {offset : BitVec 12}
    {s t : State} (h : branchOn c imm src2 src1 offset s = .next t) : KeepsFlow (advance s) t := by
  obtain ⟨-, -, rfl⟩ := branchOn_eq_next.1 h
  dsimp only
  split
  · exact (afterDestination_keepsFlow offset s).trans (jumpD1_keepsFlow ..)
  · exact afterDestination_keepsFlow offset s

/-- Every completed instruction is in one of the cases. -/
theorem completion {i : Instr} {s t : State} (h : exec i s = .next t) : Completion i s t := by
  have hi := exec_meaning i
  generalize exec i = f at hi h
  cases hi with
  | trap hc => exact completion_of_trapOn hc h
  | lds => exact completion_of_execLds h
  | jindss => exact completion_of_execJindss h
  | illegal => cases h
  | reserved => cases h
  | packed =>
    obtain ⟨-, -, -, rfl⟩ := packed_eq_next.1 h
    exact .plain ((runAlu3_keeps ..).trans (runAlu2_keeps ..)).flow
  | branch => exact .plain (branchOn_keepsFlow h)
  | set =>
    obtain ⟨-, rfl⟩ := setOn_eq_next.1 h
    exact .plain (setReg_keepsFlow ..)
  | load =>
    obtain ⟨-, -, rfl⟩ := loadPlain_eq_next.1 h
    exact .plain ((formAddress_keepsFlow ..).trans (loadReg_keepsFlow ..))
  | loadWithAlu2 =>
    obtain ⟨-, -, -, rfl⟩ := loadWithAlu2_eq_next.1 h
    exact .plain (((formAddress_keepsFlow ..).trans (runAlu2_keepsFlow ..)).trans
      (loadReg_keepsFlow ..))
  | store =>
    obtain ⟨-, -, -, rfl⟩ := storePlain_eq_next.1 h
    exact .plain ((formAddress_keepsFlow ..).trans (setMem_keepsFlow ..))
  | storeWithAlu2 =>
    obtain ⟨-, -, -, -, -, rfl⟩ := storeWithAlu2_eq_next.1 h
    exact .plain (((formAddress_keepsFlow ..).trans (setMem_keepsFlow ..)).trans
      (runAlu2_keepsFlow ..))
  | ldi =>
    cases stages_of_issue h
    exact .plain ((setDisp_keepsFlow ..).trans (setReg_keepsFlow ..))
  | bucnd =>
    cases stages_of_issue h
    exact .plain ((setDisp_keepsFlow ..).trans (jumpD1_keepsFlow ..))
  | jbase =>
    cases stages_of_issue h
    exact .plain ((setDisp_keepsFlow ..).trans (jumpD1_keepsFlow ..))
  | jdrct =>
    cases stages_of_issue h
    exact .plain ((setDisp_keepsFlow ..).trans (jumpD1_keepsFlow ..))
  | jbind =>
    exact .plain ((formAddress_keepsFlow ..).trans (jumpThroughMar_keepsFlow (stages_of_issue h)))
  | jibalu =>
    exact .plain (((formAddress_keepsFlow ..).trans (runAlu2_keepsFlow ..)).trans
      (jumpThroughMar_keepsFlow (stages_of_issue h)))
  | jind =>
    exact .plain ((formAddress_keepsFlow ..).trans (jumpThroughMar_keepsFlow (stages_of_issue h)))
  | spcb =>
    exact .plain ((formAddress_keepsFlow ..).trans (memWrite_keepsFlow (stages_of_issue h)))
  | spc =>
    exact .plain ((formAddress_keepsFlow ..).trans (memWrite_keepsFlow (stages_of_issue h)))
  | sts =>
    exact .plain ((formAddress_keepsFlow ..).trans (memWrite_keepsFlow (stages_of_issue h)))
  | savepc =>
    exact .plain ((formAddress_keepsFlow ..).trans (memWrite_keepsFlow (stages_of_issue h)))
  | spcalu =>
    obtain ⟨u, hu, hpiece⟩ := andThen_eq_next.1 (stages_of_issue h)
    cases hpiece
    exact .plain (((formAddress_keepsFlow ..).trans (memWrite_keepsFlow hu)).trans
      (runAlu2_keepsFlow ..))

/-- Settles O47: a taken trap is the one completion that leaves the advanced `pc0`, `pcm` and
setting. -/
theorem onlyTrapsSkipTheNextInstruction : Obligations.OnlyTrapsSkipTheNextInstruction := by
  intro i s t h
  cases completion h with
  | plain hk => exact .inl ⟨hk.pc0, hk.pcm, hk.suCur⟩
  | lds => exact .inl ⟨rfl, rfl, rfl⟩
  | jindss => exact .inl ⟨rfl, rfl, rfl⟩
  | trapNotTaken => exact .inl ⟨rfl, rfl, rfl⟩
  | trapTaken hi => exact .inr ⟨hi, rfl, rfl, rfl, rfl, rfl, rfl⟩

/-- Settles O46: the setting JINDSS leaves for the instruction after the next is the one O47 moves
up when the next one, in the first delay slot, is no trap. -/
theorem settingAfterReturn : Obligations.SettingAfterReturn := by
  intro address i s t u hjindss hslot hi
  obtain ⟨-, -, rfl⟩ := execJindss_eq_next.1 hjindss
  rcases onlyTrapsSkipTheNextInstruction i _ u hslot with ⟨hpc0, -, hsuCur⟩ | ⟨htrap, -⟩
  · exact ⟨rfl, hpc0, hsuCur⟩
  · exact absurd (hi.symm.trans htrap) Bool.false_ne_true

/-- Settles O59: SUreg or the next setting differs only in the completions that are no plain ones.
-/
theorem surpriseRegisterWriters : Obligations.SurpriseRegisterWriters := by
  intro i s t h
  cases completion h with
  | plain hk => exact ⟨fun hne => absurd hk.suReg hne, fun hne => absurd hk.suNxt hne⟩
  | lds hi => exact ⟨fun _ => .inl (hi ▸ rfl), fun hne => absurd rfl hne⟩
  | jindss hi => exact ⟨fun hne => absurd rfl hne, fun _ => .inl ⟨⟨_, hi⟩, rfl⟩⟩
  | trapNotTaken hi => exact ⟨fun _ => .inr hi, fun hne => absurd rfl hne⟩
  | trapTaken hi htest => exact ⟨fun _ => .inr hi, fun _ => .inr ⟨htest, rfl, rfl, rfl, rfl⟩⟩

end Sys2Proof.Machine
end

section
/-! PROOFS. User state and system state (60_exceptions.md R255, R267; decision D31). Two runs that
differ in Ap, Ma and SUreg only are followed through an instruction side by side. -/

namespace Sys2Proof.Machine

/-- The state with other words in Ap, Ma and SUreg. -/
def State.withSystem (s : State) (x y z : Word) : State := { s with ap := x, ma := y, suReg := z }

/-- Two runs of an instruction, the second with `x` in Ap and `y` in Ma, went the same way: they
stopped for the same reason, or they left the same state beside Ap, Ma and SUreg, the second with
`x` and `y` still there. -/
inductive Agree (x y : Word) : Result → Result → Prop
  | next (t : State) (z : Word) : Agree x y (.next t) (.next (t.withSystem x y z))
  | fault (r : Fault) : Agree x y (.fault r) (.fault r)
  | refused (r : Refusal) : Agree x y (.refused r) (.refused r)

variable {x y z : Word}

section
variable {o o' : Result} (h : Agree x y o o')
include h

theorem Agree.of_next {t : State} (ho : o = .next t) : ∃ z, o' = .next (t.withSystem x y z) := by
  subst ho
  cases h with
  | next _ z => exact ⟨z, rfl⟩

theorem Agree.of_fault {r : Fault} (ho : o = .fault r) : o' = .fault r := by
  subst ho
  cases h
  rfl

theorem Agree.of_refused {r : Refusal} (ho : o = .refused r) : o' = .refused r := by
  subst ho
  cases h
  rfl

end

/-! ### The shared operations -/

theorem formAddress_withSystem (t : State) (a : Address) :
    formAddress (t.withSystem x y z) a = (formAddress t a).withSystem x y z := by
  cases a <;> rfl

/-- A move that is not privileged reads neither Ap nor Ma (R255). -/
theorem specialValue_withSystem {sel : SrcSel} (h : srcPrivileged sel = false) (t : State)
    (pc : Word) : specialValue (t.withSystem x y z) sel pc = specialValue t sel pc := by
  cases sel with
  | ap => cases h
  | ma => cases h
  | hi => rfl
  | lo => rfl
  | pc => rfl

/-- A piece with an implicit destination that is not privileged writes neither Ap nor Ma (R255). -/
theorem writeSpecial_withSystem {sel : DstSel} (h : dstPrivileged sel = false) (t : State)
    (a : Word) :
    writeSpecial (t.withSystem x y z) sel a = (writeSpecial t sel a).withSystem x y z := by
  cases sel with
  | ap => cases h
  | ma => cases h
  | _ => rfl

theorem runAlu2_withSystem {p : Alu2} (h : alu2Privileged p = false) (t : State) :
    runAlu2 p (t.withSystem x y z) = (runAlu2 p t).withSystem x y z := by
  cases p with
  | fromSpecial sel imm dst =>
    simp only [runAlu2, specialValue_withSystem h]
    rfl
  | toSpecial => exact writeSpecial_withSystem h _ _
  | _ => rfl

theorem runAlu3_withSystem {p : Alu3} (h : alu3Privileged p = false) (t : State) :
    runAlu3 p (t.withSystem x y z) = (runAlu3 p t).withSystem x y z := by
  cases p with
  | fromSpecial sel imm dst src2 =>
    simp only [runAlu3, specialValue_withSystem h]
    rfl
  | toSpecial => exact writeSpecial_withSystem h _ _
  | _ => rfl

/-- A memory write is the same in both runs. -/
theorem memWrite_agree (t : State) (a v : Word) :
    Agree x y (memWrite t a v) (memWrite (t.withSystem x y z) a v) := by
  have hmem : memAddr (t.withSystem x y z) a = memAddr t a := rfl
  have hcode : codeAddr (t.withSystem x y z) a = codeAddr t a := rfl
  simp only [memWrite, hmem, hcode]
  split
  · split
    · exact .refused _
    · exact .next _ _
  · exact .fault _

/-- A memory read answers the same in both runs, so they agree if what follows it does. -/
theorem andThen_memRead_agree {t : State} {a : Word} {f g : Word → Result}
    (h : ∀ v, Agree x y (f v) (g v)) :
    Agree x y (andThen (memRead t a) f) (andThen (memRead (t.withSystem x y z) a) g) := by
  change Agree x y _ (andThen (memRead t a) g)
  cases memRead t a with
  | next v => exact h v
  | fault r => exact .fault r
  | refused r => exact .refused r

theorem andThen_agree {o o' : Result} {f : State → Result} (ho : Agree x y o o')
    (h : ∀ t z, Agree x y (f t) (f (t.withSystem x y z))) :
    Agree x y (andThen o f) (andThen o' f) := by
  cases ho with
  | next t z => exact h t z
  | fault r => exact .fault r
  | refused r => exact .refused r

theorem jumpThroughMar_agree (t : State) :
    Agree x y (jumpThroughMar t) (jumpThroughMar (t.withSystem x y z)) :=
  andThen_memRead_agree fun _ => .next _ _

theorem loadThroughMar_agree (dst : Reg) (t : State) :
    Agree x y (loadThroughMar dst t) (loadThroughMar dst (t.withSystem x y z)) :=
  andThen_memRead_agree fun _ => .next _ _

/-- In user state the checks before the stages come out alike, and the stages run only if the
instruction holds no privileged operation (R265). -/
theorem issue_agree {u : Uses} {s : State} {stages stages' : State → Result}
    (hu : supervisor s = false)
    (h : u.privileged = false →
      Agree x y (stages (advance s)) (stages' ((advance s).withSystem x y z))) :
    Agree x y (issue u s stages) (issue u (s.withSystem x y z) stages') := by
  have hsup : supervisor (s.withSystem x y z) = false := hu
  have hload : loadPending (s.withSystem x y z) u.regs = loadPending s u.regs := rfl
  have hjump : (s.withSystem x y z).jd2Prev = s.jd2Prev := rfl
  have hadvance : advance (s.withSystem x y z) = (advance s).withSystem x y z := rfl
  simp only [issue, hu, hsup, hload, hjump, hadvance]
  cases hp : u.privileged with
  | true => exact .refused _
  | false =>
    simp only [Bool.false_and, Bool.false_eq_true, if_false]
    split
    · exact .refused _
    split
    · exact .refused _
    split
    · exact .refused _
    · exact h hp

/-! ### The shared meanings -/

variable {s : State}

theorem packed_agree (hu : supervisor s = false) (p3 : Alu3) (p2 : Alu2) :
    Agree x y (packed p3 p2 s) (packed p3 p2 (s.withSystem x y z)) := by
  refine issue_agree hu fun hp => ?_
  obtain ⟨hp3, hp2⟩ := Bool.or_eq_false_iff.1 hp
  rw [runAlu3_withSystem hp3, runAlu2_withSystem hp2]
  exact .next _ _

theorem branchOn_agree (hu : supervisor s = false) (c : Cond) (imm : Bool) (src2 src1 : Reg)
    (offset : BitVec 12) :
    Agree x y (branchOn c imm src2 src1 offset s)
      (branchOn c imm src2 src1 offset (s.withSystem x y z)) := by
  refine issue_agree hu fun _ => ?_
  change Agree x y
    (.next (if test c (operand s imm src1) (reg s src2) then
      jumpD1 (afterDestination offset s) (s.pc1 + sext offset) else afterDestination offset s))
    (.next (if test c (operand s imm src1) (reg s src2) then
      jumpD1 ((afterDestination offset s).withSystem x y z) (s.pc1 + sext offset)
      else (afterDestination offset s).withSystem x y z))
  split
  · exact .next _ _
  · exact .next _ _

/-- A TRAP writes SUreg, of which the run with other words keeps other bits. -/
theorem trapOn_agree (hu : supervisor s = false) (c : Cond) (imm : Bool) (src2 src1 : Reg)
    (code : BitVec 11) (bit0 : Bool) :
    Agree x y (trapOn c imm src2 src1 code bit0 s)
      (trapOn c imm src2 src1 code bit0 (s.withSystem x y z)) := by
  refine issue_agree hu fun _ => ?_
  change Agree x y
    (.next (if test c (operand s imm src1) (reg s src2) then
      takeTrap (afterTrapCode code s) else afterTrapCode code s))
    (.next (if test c (operand s imm src1) (reg s src2) then
      takeTrap (afterTrapCode code (s.withSystem x y z))
      else afterTrapCode code (s.withSystem x y z)))
  split
  · exact .next _ _
  · exact .next _ _

theorem loadPlain_agree (hu : supervisor s = false) (w : Word) (dst : Reg) (a : Address) :
    Agree x y (loadPlain w dst a s) (loadPlain w dst a (s.withSystem x y z)) := by
  refine issue_agree hu fun _ => ?_
  rw [formAddress_withSystem]
  exact loadThroughMar_agree ..

theorem loadWithAlu2_agree (hu : supervisor s = false) (w : Word) (dst : Reg) (a : Address)
    (p : Alu2) :
    Agree x y (loadWithAlu2 w dst a p s) (loadWithAlu2 w dst a p (s.withSystem x y z)) := by
  refine issue_agree hu fun hp => ?_
  rw [formAddress_withSystem, runAlu2_withSystem hp]
  exact loadThroughMar_agree ..

theorem storePlain_agree (hu : supervisor s = false) (w : Word) (st : Reg) (a : Address) :
    Agree x y (storePlain w st a s) (storePlain w st a (s.withSystem x y z)) := by
  refine issue_agree hu fun _ => ?_
  rw [formAddress_withSystem]
  exact memWrite_agree ..

/-- A memory write and then an ALU2 piece. -/
theorem memWrite_piece_agree {p : Alu2} (hp : alu2Privileged p = false) (t : State) (a v : Word) :
    Agree x y (andThen (memWrite t a v) fun t => .next (runAlu2 p t))
      (andThen (memWrite (t.withSystem x y z) a v) fun t => .next (runAlu2 p t)) := by
  refine andThen_agree (memWrite_agree t a v) fun t z => ?_
  rw [runAlu2_withSystem hp]
  exact .next _ _

theorem storeWithAlu2_agree (hu : supervisor s = false) (w : Word) (st : Reg) (a : Address)
    (p : Alu2) :
    Agree x y (storeWithAlu2 w st a p s) (storeWithAlu2 w st a p (s.withSystem x y z)) := by
  refine issue_agree hu fun hp => ?_
  rw [formAddress_withSystem]
  exact memWrite_piece_agree hp ..

/-! ### Every instruction -/

/-- In user state the two runs of every instruction agree. -/
theorem exec_agree (i : Instr) (hu : supervisor s = false) :
    Agree x y (exec i s) (exec i (s.withSystem x y z)) := by
  have hi := exec_meaning i
  generalize exec i = f at hi ⊢
  cases hi with
  | packed => exact packed_agree hu ..
  | branch => exact branchOn_agree hu ..
  | trap => exact trapOn_agree hu ..
  | set => exact issue_agree hu fun _ => .next _ _
  | load => exact loadPlain_agree hu ..
  | loadWithAlu2 => exact loadWithAlu2_agree hu ..
  | store => exact storePlain_agree hu ..
  | storeWithAlu2 => exact storeWithAlu2_agree hu ..
  | ldi => exact issue_agree hu fun _ => .next _ _
  | bucnd => exact issue_agree hu fun _ => .next _ _
  | jbase => exact issue_agree hu fun _ => .next _ _
  | jdrct => exact issue_agree hu fun _ => .next _ _
  | jbind => exact issue_agree hu fun _ => jumpThroughMar_agree _
  | jind => exact issue_agree hu fun _ => jumpThroughMar_agree _
  | jibalu =>
    refine issue_agree hu fun hp => ?_
    rw [formAddress_withSystem, runAlu2_withSystem hp]
    exact jumpThroughMar_agree _
  | spcb => exact issue_agree hu fun _ => memWrite_agree ..
  | spc => exact issue_agree hu fun _ => memWrite_agree ..
  | spcalu => exact issue_agree hu fun hp => memWrite_piece_agree hp ..
  | lds => exact issue_agree hu nofun
  | sts => exact issue_agree hu nofun
  | savepc => exact issue_agree hu nofun
  | jindss => exact issue_agree hu nofun
  | illegal => exact .refused _
  | reserved => exact .refused _

/-- Settles O58: each clause is one way in which the two runs agree. -/
theorem userStateCannotReadSystemState : Obligations.UserStateCannotReadSystemState := by
  intro i s x y z hu
  have hagree : Agree x y (exec i s) (exec i (s.withSystem x y z)) := exec_agree i hu
  exact ⟨fun _ => hagree.of_next, fun _ => hagree.of_fault, fun _ => hagree.of_refused⟩

/-- In user state no completed instruction has changed Ap or Ma: run beside itself, it leaves in
them the words they held. -/
theorem exec_keeps_ap_ma {i : Instr} {t : State} (hu : supervisor s = false)
    (h : exec i s = .next t) : t.ap = s.ap ∧ t.ma = s.ma := by
  have hagree : Agree s.ap s.ma (exec i s) (exec i s) := exec_agree (z := s.suReg) i hu
  obtain ⟨z, hz⟩ := hagree.of_next h
  have ht : t = t.withSystem s.ap s.ma z := Host.Outcome.next.inj (h.symm.trans hz)
  rw [ht]
  exact ⟨rfl, rfl⟩

/-- Settles O57: of the completions LDS and JINDSS are privileged, and Ap and Ma are kept. -/
theorem userStateKeepsSystemState : Obligations.UserStateKeepsSystemState := by
  intro i s t hu h
  obtain ⟨hap, hma⟩ := exec_keeps_ap_ma hu h
  refine ⟨hap, hma, ?_⟩
  cases completion h with
  | plain hk => exact ⟨.inl hk.suNxt, .inl hk.suReg⟩
  | lds _ hsup => exact absurd (hu.symm.trans hsup) Bool.false_ne_true
  | jindss _ hsup => exact absurd (hu.symm.trans hsup) Bool.false_ne_true
  | trapNotTaken hi => exact ⟨.inl rfl, .inr hi⟩
  | trapTaken hi => exact ⟨.inr ⟨hi, rfl⟩, .inr hi⟩

end Sys2Proof.Machine
end

section
/-! PROOFS. A word of memory and its four bytes (20_memory.md R50, R55): reading a word after a word
write, from the reading of the bytes in Laws/Memory.lean. -/

namespace Sys2Proof.Machine

/-- Bit `i` of a word is bit `i % 8` of its byte number `i / 8` (R55). -/
theorem getLsbD_eq_getLsbD_byteOf (v : Word) (i : Nat) :
    v.getLsbD i = (byteOf v (i / 8)).getLsbD (i % 8) := by
  simp [byteOf, Nat.div_add_mod, Nat.mod_lt]

theorem eq_of_byteOf_eq {v w : Word} (h : ∀ k < 4, byteOf v k = byteOf w k) : v = w := by
  refine BitVec.eq_of_getLsbD_eq fun i hi => ?_
  rw [getLsbD_eq_getLsbD_byteOf v, getLsbD_eq_getLsbD_byteOf w, h (i / 8) (by omega)]

theorem byteOf_word (m : Memory) (a : Word) {k : Nat} (hk : k < 4) :
    byteOf (m.word a) k = m.byte (byteKey a k) := by
  unfold byteOf Memory.word
  interval_cases k
  · exact BitVec.extractLsb'_append_eq_right
  · rw [BitVec.extractLsb'_append_eq_of_le (by decide)]
    exact BitVec.extractLsb'_append_eq_right
  · rw [BitVec.extractLsb'_append_eq_of_le (by decide),
      BitVec.extractLsb'_append_eq_of_le (by decide)]
    exact BitVec.extractLsb'_append_eq_right
  · rw [BitVec.extractLsb'_append_eq_of_le (by decide),
      BitVec.extractLsb'_append_eq_of_le (by decide)]
    exact BitVec.extractLsb'_append_eq_left

theorem byte_setWord_byteKey {m : Memory} (hm : m.wf = true) (a b v : Word) {k : Nat}
    (hk : k < 4) :
    (m.setWord a v).byte (byteKey b k) = if b = a then byteOf v k else m.byte (byteKey b k) := by
  have hdiv : byteKey b k / 4 = b.toNat := by
    unfold byteKey
    omega
  have hmod : byteKey b k % 4 = k := by
    unfold byteKey
    omega
  simp only [byte_setWord hm, hdiv, hmod, BitVec.toNat_inj]

theorem word_setWord {m : Memory} (hm : m.wf = true) (a b v : Word) :
    (m.setWord a v).word b = if b = a then v else m.word b := by
  refine eq_of_byteOf_eq fun k hk => ?_
  rw [byteOf_word _ _ hk, byte_setWord_byteKey hm a b v hk]
  split
  · rfl
  · exact (byteOf_word m b hk).symm

/-- Settles O8: a word is its four bytes, and each of them reads as the write left it. -/
theorem memoryReadsWhatWasWritten : Obligations.MemoryReadsWhatWasWritten :=
  ⟨fun _ a b v hm => word_setWord hm a b v, fun m a _ hk => byteOf_word m a hk⟩

end Sys2Proof.Machine
end

section
/-! PROOFS. The one data access of an instruction (20_memory.md R51, R58): every legal instruction is
the checks of `issue` and then stages that make that access and touch memory nowhere else. -/

namespace Sys2Proof.Machine

/-! ### What leaves memory alone -/

/-- Memory and its two domains are the same. -/
structure KeepsMemory (t u : State) : Prop where
  mem : u.mem = t.mem
  memDomain : u.memDomain = t.memDomain
  codeDomain : u.codeDomain = t.codeDomain

theorem KeepsMemory.trans {t u v : State} (h : KeepsMemory t u) (k : KeepsMemory u v) :
    KeepsMemory t v :=
  ⟨k.mem.trans h.mem, k.memDomain.trans h.memDomain, k.codeDomain.trans h.codeDomain⟩

theorem KeepsMemory.memAddr_eq {t u : State} (h : KeepsMemory t u) (a : Word) :
    memAddr u a = memAddr t a := by
  simp only [memAddr, h.memDomain]

theorem KeepsMemory.codeAddr_eq {t u : State} (h : KeepsMemory t u) (a : Word) :
    codeAddr u a = codeAddr t a := by
  simp only [codeAddr, h.codeDomain, h.memAddr_eq]

theorem KeepsMemory.setMem {t u : State} (h : KeepsMemory t u) (m : Memory) :
    KeepsMemory (setMem t m) (setMem u m) :=
  ⟨rfl, h.memDomain, h.codeDomain⟩

theorem PieceKeeps.keepsMemory {t u : State} (h : PieceKeeps t u) : KeepsMemory t u :=
  ⟨h.mem, h.memDomain, h.codeDomain⟩

theorem advance_keepsMemory (t : State) : KeepsMemory t (advance t) := ⟨rfl, rfl, rfl⟩

theorem runAlu2_keepsMemory (p : Alu2) (t : State) : KeepsMemory t (runAlu2 p t) :=
  (runAlu2_keeps p t).keepsMemory

theorem runAlu3_keepsMemory (p : Alu3) (t : State) : KeepsMemory t (runAlu3 p t) :=
  (runAlu3_keeps p t).keepsMemory

theorem formAddress_keepsMemory (t : State) (a : Address) : KeepsMemory t (formAddress t a) := by
  cases a <;> exact ⟨rfl, rfl, rfl⟩

/-! ### The access -/

/-- The result `o` of making the access `x` from a state `t`, and of changing nothing else of
memory or its domains: it faults outside memory, a store into the program is refused, and otherwise
a load leaves memory as it is and a store writes one word (R51, R64). -/
inductive Accesses (t : State) : (x : Access) → (o : Result) → Prop
  | none {u} (h : KeepsMemory t u) : Accesses t .none (.next u)
  | load {a u} (ha : memAddr t a = true) (h : KeepsMemory t u) : Accesses t (.load a) (.next u)
  | loadOutside {a} (ha : memAddr t a = false) : Accesses t (.load a) (.fault (.badAddress a))
  | store {a v u} (ha : memAddr t a = true) (hc : codeAddr t a = false)
      (h : KeepsMemory (setMem t (t.mem.setWord a v)) u) : Accesses t (.store a) (.next u)
  | storeOutside {a} (ha : memAddr t a = false) : Accesses t (.store a) (.fault (.badAddress a))
  | storeToCode {a} (ha : memAddr t a = true) (hc : codeAddr t a = true) :
      Accesses t (.store a) (.refused (.storeToCode a))

theorem memRead_accesses (t : State) (a : Word) {f : Word → State}
    (hf : ∀ v, KeepsMemory t (f v)) :
    Accesses t (.load a) (andThen (memRead t a) fun v => .next (f v)) := by
  unfold memRead
  split
  next ha => exact .load ha (hf _)
  next ha => exact .loadOutside (Bool.eq_false_of_not_eq_true ha)

theorem memWrite_accesses (t : State) (a v : Word) : Accesses t (.store a) (memWrite t a v) := by
  unfold memWrite
  split
  next ha =>
    split
    next hc => exact .storeToCode ha hc
    next hc => exact .store ha (Bool.eq_false_of_not_eq_true hc) ⟨rfl, rfl, rfl⟩
  next ha => exact .storeOutside (Bool.eq_false_of_not_eq_true ha)

/-- An access made from a later state with the same memory is one made from the earlier state. -/
theorem Accesses.of_keepsMemory {s t : State} {x : Access} {o : Result} (h : Accesses t x o)
    (hk : KeepsMemory s t) : Accesses s x o := by
  cases h with
  | none h => exact .none (hk.trans h)
  | load ha h => exact .load (hk.memAddr_eq _ ▸ ha) (hk.trans h)
  | loadOutside ha => exact .loadOutside (hk.memAddr_eq _ ▸ ha)
  | store ha hc h =>
    rw [hk.mem] at h
    exact .store (hk.memAddr_eq _ ▸ ha) (hk.codeAddr_eq _ ▸ hc) ((hk.setMem _).trans h)
  | storeOutside ha => exact .storeOutside (hk.memAddr_eq _ ▸ ha)
  | storeToCode ha hc => exact .storeToCode (hk.memAddr_eq _ ▸ ha) (hk.codeAddr_eq _ ▸ hc)

/-- An ALU2 piece after the access makes none of its own. -/
theorem Accesses.andThen_piece {t : State} {x : Access} {o : Result} (h : Accesses t x o)
    (p : Alu2) : Accesses t x (andThen o fun u => .next (runAlu2 p u)) := by
  cases h with
  | none h => exact .none (h.trans (runAlu2_keepsMemory ..))
  | load ha h => exact .load ha (h.trans (runAlu2_keepsMemory ..))
  | loadOutside ha => exact .loadOutside ha
  | store ha hc h => exact .store ha hc (h.trans (runAlu2_keepsMemory ..))
  | storeOutside ha => exact .storeOutside ha
  | storeToCode ha hc => exact .storeToCode ha hc

section
variable {t : State} {x : Access} {o : Result} (h : Accesses t x o)
include h

/-- It faults exactly at an address outside memory. -/
theorem Accesses.eq_badAddress_iff (a : Word) :
    o = .fault (.badAddress a) ↔ (x = .load a ∨ x = .store a) ∧ memAddr t a = false := by
  cases h <;> grind

/-- It is refused exactly at a store into the program. -/
theorem Accesses.eq_storeToCode_iff (a : Word) :
    o = .refused (.storeToCode a) ↔ x = .store a ∧ memAddr t a = true ∧ codeAddr t a = true := by
  cases h <;> grind

end

/-! ### The address in MAR -/

/-- The state `t` is as far as memory goes the state `s`, and MAR holds the address `a`. -/
structure Addressed (s : State) (a : Word) (t : State) : Prop extends KeepsMemory s t where
  mar : t.mar = a

theorem formAddress_addressed (s : State) (a : Address) :
    Addressed s (addressOf s a) (formAddress (advance s) a) :=
  ⟨(advance_keepsMemory s).trans (formAddress_keepsMemory ..), by cases a <;> rfl⟩

section
variable {s t : State} {a : Word} (h : Addressed s a t)
include h

theorem Addressed.runAlu2 (p : Alu2) : Addressed s a (runAlu2 p t) :=
  ⟨h.trans (runAlu2_keepsMemory p t), (runAlu2_keeps p t).mar.trans h.mar⟩

theorem Addressed.enableSu (v : Word) : Addressed s a (enableSu t v) :=
  ⟨h.trans ⟨rfl, rfl, rfl⟩, h.mar⟩

theorem Addressed.load_accesses {f : Word → State} (hf : ∀ v, KeepsMemory t (f v)) :
    Accesses s (.load a) (andThen (memRead t t.mar) fun v => .next (f v)) :=
  h.mar ▸ (memRead_accesses t t.mar hf).of_keepsMemory h.toKeepsMemory

theorem Addressed.loadThroughMar_accesses (dst : Reg) :
    Accesses s (.load a) (loadThroughMar dst t) :=
  h.load_accesses fun _ => ⟨rfl, rfl, rfl⟩

theorem Addressed.jumpThroughMar_accesses : Accesses s (.load a) (jumpThroughMar t) :=
  h.load_accesses fun _ => ⟨rfl, rfl, rfl⟩

theorem Addressed.store_accesses (v : Word) : Accesses s (.store a) (memWrite t t.mar v) :=
  h.mar ▸ (memWrite_accesses t t.mar v).of_keepsMemory h.toKeepsMemory

end

/-! ### Every instruction -/

/-- What the checks before the stages are told of an instruction (60_exceptions.md R262). -/
def checked (i : Instr) (s : State) : Uses where
  word := encode i
  regs := i.uses
  privileged := i.privileged
  pcInOd := i.accessesPcInOd
  conflict := i.conflicts s

theorem checked_of_packing {i : Instr} {p3 : Alu3} {p2 : Alu2} (h : i.packing = some (p3, p2))
    (s : State) :
    checked i s =
      { word := encodeAlu23 p3 p2
        regs := alu3Regs p3 ++ alu2Regs p2
        privileged := alu3Privileged p3 || alu2Privileged p2
        pcInOd := alu3Pc p3 } := by
  cases i <;> cases h <;> rfl

theorem access_of_packing {i : Instr} {q : Alu3 × Alu2} (h : i.packing = some q) (s : State) :
    i.access s = .none := by
  cases i <;> cases h <;> rfl

/-- A condition row is checked as the word that carries its condition (42_control.md R172). -/
theorem checked_of_condition {i : Instr} {c : Cond} {h : CondHost} (hi : i.condition = some (c, h))
    (s : State) : checked i s = checked (h.instr c) s := by
  cases h <;> cases i <;> cases hi <;> rfl

theorem checked_branch (c : Cond) (imm : Bool) (src2 src1 : Reg) (offset : BitVec 12) (s : State) :
    checked ((CondHost.branch imm src2 src1 offset).instr c) s =
      { word := encode (.bcnd c imm src2 src1 offset)
        regs := src2 :: operandRegs imm src1
        pcInOd := true } := by
  cases imm <;> rfl

theorem checked_trap (c : Cond) (imm : Bool) (src2 src1 : Reg) (code : BitVec 11) (bit0 : Bool)
    (s : State) :
    checked ((CondHost.trap imm src2 src1 code bit0).instr c) s =
      { word := encode (.trap c imm src2 src1 code bit0)
        regs := src2 :: operandRegs imm src1
        conflict := s.ldsPrev } := by
  cases imm <;> rfl

theorem checked_set (c : Cond) (imm : Bool) (dst src : Reg) (s : State) :
    checked ((CondHost.set imm dst src).instr c) s =
      { word := encode (.scnd c imm dst src), regs := dst :: operandRegs imm src } := by
  cases imm <;> rfl

theorem access_of_condition {i : Instr} {q : Cond × CondHost} (hi : i.condition = some q)
    (s : State) : i.access s = .none := by
  cases i <;> cases hi <;> rfl

/-- The result `o` of checks `u` and then stages that make the access `x`. -/
def ChecksThenAccesses (u : Uses) (x : Access) (s : State) (o : Result) : Prop :=
  ∃ stages, o = issue u s stages ∧ Accesses s x (stages (advance s))

theorem ChecksThenAccesses.of_issue {u : Uses} {x : Access} {s : State} {stages : State → Result}
    (h : Accesses s x (stages (advance s))) : ChecksThenAccesses u x s (issue u s stages) :=
  ⟨stages, rfl, h⟩

theorem ChecksThenAccesses.of_issue_next {u : Uses} {s : State} {f : State → State}
    (h : KeepsMemory (advance s) (f (advance s))) :
    ChecksThenAccesses u .none s (issue u s fun t => .next (f t)) :=
  .of_issue (.none ((advance_keepsMemory s).trans h))

theorem packed_checksThenAccesses {i : Instr} {p3 : Alu3} {p2 : Alu2}
    (h : i.packing = some (p3, p2)) (s : State) :
    ChecksThenAccesses (checked i s) .none s (packed p3 p2 s) := by
  rw [checked_of_packing h]
  exact .of_issue_next ((runAlu3_keepsMemory ..).trans (runAlu2_keepsMemory ..))

theorem conditional_checksThenAccesses (c : Cond) (h : CondHost) (s : State) :
    ChecksThenAccesses (checked (h.instr c) s) .none s (conditional c h s) := by
  cases h with
  | branch imm src2 src1 offset =>
    rw [checked_branch]
    change ChecksThenAccesses _ _ s (branchOn c imm src2 src1 offset s)
    refine .of_issue_next ?_
    split <;> exact ⟨rfl, rfl, rfl⟩
  | trap imm src2 src1 code bit0 =>
    rw [checked_trap]
    change ChecksThenAccesses _ _ s (trapOn c imm src2 src1 code bit0 s)
    refine .of_issue_next ?_
    split <;> exact ⟨rfl, rfl, rfl⟩
  | set imm dst src =>
    rw [checked_set]
    change ChecksThenAccesses _ _ s (setOn c imm dst src s)
    exact .of_issue_next ⟨rfl, rfl, rfl⟩

theorem loadPlain_checksThenAccesses (w : Word) (dst : Reg) (a : Address) (s : State) :
    ChecksThenAccesses { word := w, regs := dst :: addressRegs a } (.load (addressOf s a)) s
      (loadPlain w dst a s) :=
  .of_issue ((formAddress_addressed s a).loadThroughMar_accesses dst)

theorem loadWithAlu2_checksThenAccesses (w : Word) (dst : Reg) (a : Address) (p : Alu2)
    (s : State) :
    ChecksThenAccesses
      { word := w, regs := dst :: addressRegs a ++ alu2Regs p, privileged := alu2Privileged p }
      (.load (addressOf s a)) s (loadWithAlu2 w dst a p s) :=
  .of_issue (((formAddress_addressed s a).runAlu2 p).loadThroughMar_accesses dst)

theorem storePlain_checksThenAccesses (w : Word) (st : Reg) (a : Address) (s : State) :
    ChecksThenAccesses { word := w, regs := st :: addressRegs a } (.store (addressOf s a)) s
      (storePlain w st a s) :=
  .of_issue ((formAddress_addressed s a).store_accesses _)

theorem storeWithAlu2_checksThenAccesses (w : Word) (st : Reg) (a : Address) (p : Alu2)
    (s : State) :
    ChecksThenAccesses
      { word := w
        regs := st :: addressRegs a ++ alu2Regs p
        privileged := alu2Privileged p
        conflict := alu2Dst p == some st } (.store (addressOf s a)) s
      (storeWithAlu2 w st a p s) := by
  rw [beq_eq_decide]
  exact .of_issue (((formAddress_addressed s a).store_accesses _).andThen_piece p)

/-- Every legal instruction is its checks, and then stages that make its one data access: by the
shape of its meaning, which each case names. -/
theorem exec_checksThenAccesses {i : Instr} (hi : i.legal = true) (s : State) :
    ChecksThenAccesses (checked i s) (i.access s) s (exec i s) := by
  cases hp : i.packing with
  | some q =>
    rw [exec_of_packing hp, access_of_packing hp]
    exact packed_checksThenAccesses hp s
  | none =>
  cases hc : i.condition with
  | some q =>
    rw [exec_of_condition hc, access_of_condition hc, checked_of_condition hc]
    exact conditional_checksThenAccesses ..
  | none =>
  have hmar := formAddress_addressed s
  cases i with
  | lbi dst base offset => exact loadPlain_checksThenAccesses _ dst (.based base offset) s
  | ldl dst address => exact loadPlain_checksThenAccesses _ dst (.direct address) s
  | lbalu dst base p offset =>
    exact loadWithAlu2_checksThenAccesses _ dst (.based base offset) p s
  | libalu dst base p index =>
    exact loadWithAlu2_checksThenAccesses _ dst (.indexed base index) p s
  | lsbalu dst base p shift =>
    exact loadWithAlu2_checksThenAccesses _ dst (.shifted base shift) p s
  | sbi st base offset => exact storePlain_checksThenAccesses _ st (.based base offset) s
  | std st address => exact storePlain_checksThenAccesses _ st (.direct address) s
  | sbalu st base p offset =>
    exact storeWithAlu2_checksThenAccesses _ st (.based base offset) p s
  | sibalu st base p index =>
    exact storeWithAlu2_checksThenAccesses _ st (.indexed base index) p s
  | ssbalu st base p shift =>
    exact storeWithAlu2_checksThenAccesses _ st (.shifted base shift) p s
  | lds address =>
    change ChecksThenAccesses _ _ s (execLds address s)
    exact .of_issue ((hmar (.direct address)).load_accesses fun _ => ⟨rfl, rfl, rfl⟩)
  | jbind base offset =>
    change ChecksThenAccesses _ _ s (execJbind base offset s)
    exact .of_issue (hmar (.based base offset)).jumpThroughMar_accesses
  | jibalu base p offset =>
    change ChecksThenAccesses _ _ s (execJibalu base p offset s)
    exact .of_issue ((hmar (.based base offset)).runAlu2 p).jumpThroughMar_accesses
  | jind address =>
    change ChecksThenAccesses _ _ s (execJind address s)
    exact .of_issue (hmar (.direct address)).jumpThroughMar_accesses
  | jindss address =>
    change ChecksThenAccesses _ _ s (execJindss address s)
    exact .of_issue ((hmar (.direct address)).enableSu _).jumpThroughMar_accesses
  | spcb base offset =>
    change ChecksThenAccesses _ _ s (execSpcb base offset s)
    exact .of_issue ((hmar (.based base offset)).store_accesses _)
  | spcalu base p offset =>
    change ChecksThenAccesses _ _ s (execSpcalu base p offset s)
    exact .of_issue (((hmar (.based base offset)).store_accesses _).andThen_piece p)
  | spc address =>
    change ChecksThenAccesses _ _ s (execSpc address s)
    exact .of_issue ((hmar (.direct address)).store_accesses _)
  | sts address =>
    change ChecksThenAccesses _ _ s (execSts address s)
    exact .of_issue ((hmar (.direct address)).store_accesses _)
  | savepc address =>
    change ChecksThenAccesses _ _ s (execSavepc address s)
    exact .of_issue ((hmar (.direct address)).store_accesses _)
  | ldi dst data =>
    change ChecksThenAccesses _ _ s (execLdi dst data s)
    exact .of_issue_next ⟨rfl, rfl, rfl⟩
  | bucnd offset =>
    change ChecksThenAccesses _ _ s (execBucnd offset s)
    exact .of_issue_next ⟨rfl, rfl, rfl⟩
  | jbase base offset =>
    change ChecksThenAccesses _ _ s (execJbase base offset s)
    exact .of_issue_next ⟨rfl, rfl, rfl⟩
  | jdrct address =>
    change ChecksThenAccesses _ _ s (execJdrct address s)
    exact .of_issue_next ⟨rfl, rfl, rfl⟩
  | illegal | reserved => cases hi
  | _ => cases hp <;> cases hc

/-- An instruction no check stops is its stages, also where these stop, which `issue_eq_next` does
not say. -/
theorem issue_eq_stages {u : Uses} {s : State} (stages : State → Result)
    (hpriv : ¬ (u.privileged = true ∧ supervisor s = false))
    (hload : ∀ r ∈ u.regs, s.ldPrev ≠ some r)
    (hpc : ¬ (u.pcInOd = true ∧ s.jd2Prev = true)) (hconf : u.conflict = false) :
    issue u s stages = stages (advance s) := by
  have hpriv' : ¬ (u.privileged && !supervisor s) = true := by simpa using hpriv
  have hpc' : ¬ (u.pcInOd && s.jd2Prev) = true := by simpa using hpc
  simp [issue, hpriv', loadPending_eq_false.2 hload, hpc', hconf]

/-- Settles O51: past the checks an instruction is its stages, and these stop as their access does.
-/
theorem accessStopsExact : Obligations.AccessStopsExact := by
  intro i s a hlegal hpriv hload hpc hconf
  obtain ⟨stages, hexec, hacc⟩ := exec_checksThenAccesses hlegal s
  rw [issue_eq_stages stages hpriv hload hpc hconf] at hexec
  rw [hexec]
  exact ⟨hacc.eq_badAddress_iff a, hacc.eq_storeToCode_iff a⟩

theorem legal_of_exec_eq_next {i : Instr} {s t : State} (h : exec i s = .next t) :
    i.legal = true := by
  cases i with
  | illegal | reserved => cases h
  | _ => rfl

/-- An instruction that goes on has made its access. -/
theorem accesses_of_exec_eq_next {i : Instr} {s t : State} (h : exec i s = .next t) :
    Accesses s (i.access s) (.next t) := by
  obtain ⟨stages, hexec, hacc⟩ := exec_checksThenAccesses (legal_of_exec_eq_next h) s
  rwa [stages_of_issue (hexec.symm.trans h)] at hacc

/-- Settles O56: the access of a completed instruction, kind by kind, with the bytes after a word
write. -/
theorem memoryChangesOnlyAtTheStore : Obligations.MemoryChangesOnlyAtTheStore := by
  intro i s t hwf h
  have hacc := accesses_of_exec_eq_next h
  generalize i.access s = x at hacc
  cases hacc with
  | none hk => exact ⟨nofun, fun _ => hk.mem⟩
  | load _ hk => exact ⟨nofun, fun _ => hk.mem⟩
  | store _ _ hk =>
    refine ⟨?_, fun hne => absurd rfl (hne _)⟩
    rintro a ⟨⟩ p hp
    rw [hk.mem]
    exact (byte_setWord hwf ..).trans (if_neg hp)

end Sys2Proof.Machine
end

section
/-! PROOFS. The program is fixed (20_memory.md R64, R291; decision D22). -/

namespace Sys2Proof.Machine

variable {memDomain codeDomain : List Span} {program : Word → Word} {s t : State}

theorem ProgramIs.of_keepsMemory (h : ProgramIs memDomain codeDomain program s)
    (hk : KeepsMemory s t) : ProgramIs memDomain codeDomain program t := by
  obtain ⟨hwf, hmemDomain, hcodeDomain, hprogram⟩ := h
  refine ⟨hk.mem ▸ hwf, hk.memDomain.trans hmemDomain, hk.codeDomain.trans hcodeDomain,
    fun b hb => ?_⟩
  rw [hk.mem]
  exact hprogram b (hk.codeAddr_eq b ▸ hb)

/-- A store outside `CodeDomain` leaves the program's words. -/
theorem ProgramIs.setWord (h : ProgramIs memDomain codeDomain program s) {a : Word} (v : Word)
    (ha : codeAddr s a = false) :
    ProgramIs memDomain codeDomain program (setMem s (s.mem.setWord a v)) := by
  obtain ⟨hwf, hmemDomain, hcodeDomain, hprogram⟩ := h
  refine ⟨wf_setWord hwf a v, hmemDomain, hcodeDomain, fun b hb => ?_⟩
  have hcode : codeAddr s b = true := hb
  have hne : b ≠ a := by
    rintro rfl
    exact Bool.false_ne_true (ha.symm.trans hcode)
  exact (word_setWord hwf a b v).trans ((if_neg hne).trans (hprogram b hcode))

/-- Settles O55: of the accesses only a store changes memory, and none into the program completes.
-/
theorem stepKeepsProgram : Obligations.StepKeepsProgram := by
  intro memDomain codeDomain program s t hprogram hstep
  obtain ⟨-, hexec⟩ := step_eq_next.1 hstep
  have hacc := accesses_of_exec_eq_next hexec
  generalize (decode (s.mem.word s.pc0)).access s = x at hacc
  cases hacc with
  | none hk => exact hprogram.of_keepsMemory hk
  | load _ hk => exact hprogram.of_keepsMemory hk
  | store _ hcode hk => exact (hprogram.setWord _ hcode).of_keepsMemory hk

end Sys2Proof.Machine
end

section
/-! PROOFS. Words, fields and mask rows: what a row of the opcode table asks of a word's fields, and when
two rows share no word (30_encoding.md R83). -/

namespace Sys2Proof

/-! ### Masks of fields -/

/-- The part of a word under a field's mask is that field in place. -/
theorem and_place_allOnes (w : Word) (lo n : Nat) :
    w &&& place (BitVec.allOnes n) lo = place (field w lo n) lo := by
  ext i hi
  by_cases h : i < lo
  · simp [place, field, h]
  · simp [place, field, h, show lo + (i - lo) = i by omega, BitVec.getLsbD_eq_getElem hi, Bool.and_comm]

/-- A flag is a field of one bit. -/
theorem ofBool_flag (w : Word) (k : Nat) : BitVec.ofBool (flag w k) = field w k 1 := by
  ext i hi
  obtain rfl : i = 0 := by omega
  simp [flag, field]

theorem placeFlag_flag (w : Word) (k : Nat) : placeFlag (flag w k) k = place (field w k 1) k := by
  rw [placeFlag, ofBool_flag]

/-- The row of the words whose field at `lo` is `v`. -/
def fieldRow {n : Nat} (lo : Nat) (v : BitVec n) : MaskRow := ⟨place (BitVec.allOnes n) lo, place v lo⟩

/-- The row of the words that match two rows. -/
def MaskRow.both (r r' : MaskRow) : MaskRow := ⟨r.mask ||| r'.mask, r.bits ||| r'.bits⟩

/-- The word belongs to the row (R83). -/
def MaskRow.Matches (r : MaskRow) (w : Word) : Prop := w &&& r.mask = r.bits

/-- No word matches both rows: they ask for different bits where their masks meet. -/
def MaskRow.apart (r r' : MaskRow) : Bool := r.bits &&& r'.mask != r'.bits &&& r.mask

/-- Every word of the row `r` matches `r'`: `r'` asks for fewer of the same bits. -/
def MaskRow.within (r r' : MaskRow) : Bool := r.mask &&& r'.mask == r'.mask && r.bits &&& r'.mask == r'.bits

theorem both_fieldRow_matches_iff {w : Word} {n m : Nat} {lo lo' : Nat} {v : BitVec n} {v' : BitVec m}
    (hlo : lo + n ≤ 32) (hlo' : lo' + m ≤ 32) (h : lo + n ≤ lo' ∨ lo' + m ≤ lo) :
    ((fieldRow lo v).both (fieldRow lo' v')).Matches w ↔ field w lo n = v ∧ field w lo' m = v' := by
  simp only [MaskRow.Matches, MaskRow.both, fieldRow, BitVec.and_or_distrib_left, and_place_allOnes]
  constructor
  · intro e
    have e1 := congrArg (field · lo n) e
    have e2 := congrArg (field · lo' m) e
    simpa [field_or, field_place_same _ _ hlo, field_place_same _ _ hlo', field_place_other _ lo lo' _ h,
      field_place_other _ lo' lo _ h.symm] using And.intro e1 e2
  · rintro ⟨rfl, rfl⟩
    rfl

theorem fieldRow_matches_iff {w : Word} {n lo : Nat} {v : BitVec n} (hlo : lo + n ≤ 32) :
    (fieldRow lo v).Matches w ↔ field w lo n = v := by
  simp only [MaskRow.Matches, fieldRow, and_place_allOnes]
  constructor
  · intro e
    simpa [field_place_same _ _ hlo] using congrArg (field · lo n) e
  · rintro rfl
    rfl

theorem MaskRow.Matches.both {r r' : MaskRow} {w : Word} (h : r.Matches w) (h' : r'.Matches w) :
    (r.both r').Matches w := by
  rw [MaskRow.Matches, MaskRow.both, BitVec.and_or_distrib_left, h, h']

theorem MaskRow.Matches.of_within {r r' : MaskRow} {w : Word} (h : r.Matches w) (hr : r.within r' = true) :
    r'.Matches w := by
  simp only [MaskRow.within, Bool.and_eq_true, beq_iff_eq] at hr
  obtain ⟨hmask, hbits⟩ := hr
  rw [MaskRow.Matches, ← hmask, ← BitVec.and_assoc, h, hbits]

theorem MaskRow.Matches.not_of_apart {r r' : MaskRow} {w : Word} (h : r.Matches w)
    (hr : r.apart r' = true) : ¬ r'.Matches w := by
  intro h'
  simp only [MaskRow.apart, bne_iff_ne] at hr
  apply hr
  rw [← h, ← h', BitVec.and_assoc, BitVec.and_assoc, BitVec.and_comm r.mask]

/-! ### Lists of rows -/

theorem anyRow_eq_true_iff {rows : List MaskRow} {w : Word} :
    anyRow rows w = true ↔ ∃ r ∈ rows, r.Matches w := by
  simp [anyRow, MaskRow.Matches]

theorem MaskRow.Matches.anyRow_of_mem {r : MaskRow} {w : Word} (h : r.Matches w) {rows : List MaskRow}
    (hr : r ∈ rows) : anyRow rows w = true :=
  anyRow_eq_true_iff.2 ⟨r, hr, h⟩

theorem MaskRow.Matches.anyRow_of_apart {r : MaskRow} {w : Word} (h : r.Matches w) {rows : List MaskRow}
    (hr : rows.all r.apart = true) : anyRow rows w = false := by
  rw [Bool.eq_false_iff, ne_eq, anyRow_eq_true_iff]
  rintro ⟨r', hmem, h'⟩
  exact h.not_of_apart (List.all_eq_true.1 hr r' hmem) h'

/-- The rows of the opcode map share no words (R83). -/
theorem opcodeRows_apart : ∀ r ∈ opcodeRows, ∀ r' ∈ opcodeRows, r = r' ∨ r.apart r' = true := by
  decide

theorem eq_of_matches_opcodeRows {r r' : MaskRow} {w : Word} (hr : r ∈ opcodeRows) (hr' : r' ∈ opcodeRows)
    (h : r.Matches w) (h' : r'.Matches w) : r = r' :=
  (opcodeRows_apart r hr r' hr').resolve_right fun ha => h.not_of_apart ha h'

end Sys2Proof
end

section
/-! PROOFS. The codes of the ALU pieces and of the conditions (30_encoding.md R84): which are illegal, which
are reserved (R85, R86), and that the decoder and the encoder of a piece are inverse to each other. -/

namespace Sys2Proof

theorem nibble_cases (x : BitVec 4) :
    x = 0 ∨ x = 1 ∨ x = 2 ∨ x = 3 ∨ x = 4 ∨ x = 5 ∨ x = 6 ∨ x = 7 ∨ x = 8 ∨ x = 9 ∨ x = 10 ∨
      x = 11 ∨ x = 12 ∨ x = 13 ∨ x = 14 ∨ x = 15 := by
  revert x
  decide

/-! ### Shift counts -/

@[simp] theorem getElem_ofBool_append (b : Bool) (x : BitVec 4) :
    (BitVec.ofBool b ++ x)[4] = b := by
  revert b x
  decide

@[simp] theorem extractLsb'_ofBool_append (b : Bool) (x : BitVec 4) :
    (BitVec.ofBool b ++ x).extractLsb' 0 4 = x := by
  revert b x
  decide

@[simp] theorem ofBool_append_extractLsb' (n : BitVec 5) :
    BitVec.ofBool n[4] ++ n.extractLsb' 0 4 = n := by
  revert n
  decide

/-! ### What a code is -/

/-- An implicit source code (ALU code 14) or an implicit destination code (ALU code 15) out of these. -/
def ImplicitCode (srcCodes dstCodes : List (BitVec 4)) (op src dst : BitVec 4) : Prop :=
  op = 14 ∧ src ∈ srcCodes ∨ op = 15 ∧ dst ∈ dstCodes

/-- The implicit codes of no listed piece (41_alu_special.md R142, R150). -/
abbrev IllegalCode (op src dst : BitVec 4) : Prop := ImplicitCode [13, 14, 15] [12, 13, 14, 15] op src dst

/-- The reserved implicit codes (41_alu_special.md R131, R144). -/
abbrev ReservedCode (op src dst : BitVec 4) : Prop := ImplicitCode [0, 1, 6] [0, 1, 6] op src dst

/-- What a decoder of a code answers: `illegal` or `reserved` by name exactly on those codes, and else
something listed that stands for the code read. -/
inductive ReadsCode {α : Type} (illegal reserved : Prop) (standsFor : α → Prop) : Coded α → Prop
  | listed {x} (hi : ¬ illegal) (hr : ¬ reserved) (hx : standsFor x) :
      ReadsCode illegal reserved standsFor (.listed x)
  | illegal (hi : illegal) : ReadsCode illegal reserved standsFor .illegal
  | reserved (hi : ¬ illegal) (hr : reserved) : ReadsCode illegal reserved standsFor .reserved

theorem ReadsCode.imp {α : Type} {I R : Prop} {P Q : α → Prop} {c : Coded α} (h : ReadsCode I R P c)
    (hPQ : ∀ x, P x → Q x) : ReadsCode I R Q c := by
  cases h with
  | listed hi hr hx => exact .listed hi hr (hPQ _ hx)
  | illegal hi => exact .illegal hi
  | reserved hi hr => exact .reserved hi hr

theorem implicitCode_source {S D : List (BitVec 4)} {src dst : BitVec 4} :
    ImplicitCode S D 14 src dst ↔ src ∈ S := by
  simp [ImplicitCode]

theorem implicitCode_destination {S D : List (BitVec 4)} {src dst : BitVec 4} :
    ImplicitCode S D 15 src dst ↔ dst ∈ D := by
  simp [ImplicitCode]

theorem not_implicitCode {S D : List (BitVec 4)} {op src dst : BitVec 4} (h14 : op ≠ 14) (h15 : op ≠ 15) :
    ¬ ImplicitCode S D op src dst := by
  rintro (⟨h, -⟩ | ⟨h, -⟩)
  · exact h14 h
  · exact h15 h

/-- An ALU code other than 14 and 15 has no implicit code beside it. -/
theorem ReadsCode.of_plain {α : Type} {op src dst : BitVec 4} {standsFor : α → Prop} {x : α}
    (h14 : op ≠ 14) (h15 : op ≠ 15) (hx : standsFor x) :
    ReadsCode (IllegalCode op src dst) (ReservedCode op src dst) standsFor (.listed x) :=
  .listed (not_implicitCode h14 h15) (not_implicitCode h14 h15) hx

theorem decodeDst_reads (code : BitVec 4) :
    ReadsCode (code ∈ [12#4, 13, 14, 15]) (code ∈ [0#4, 1, 6]) (fun sel => encodeDst sel = code)
      (decodeDst code) := by
  rcases nibble_cases code with
    rfl | rfl | rfl | rfl | rfl | rfl | rfl | rfl | rfl | rfl | rfl | rfl | rfl | rfl | rfl | rfl
  iterate 2 exact .reserved (by decide) (by decide)
  iterate 4 exact .listed (by decide) (by decide) rfl
  · exact .reserved (by decide) (by decide)
  iterate 5 exact .listed (by decide) (by decide) rfl
  iterate 4 exact .illegal (by decide)

/-- The decoder of an ALU2 piece names the illegal and the reserved codes, and reads every other code as
the piece that is encoded so. -/
theorem decodeAlu2_reads (imm : Bool) (dst src op : BitVec 4) :
    ReadsCode (IllegalCode op src dst) (ReservedCode op src dst)
      (fun p => ∀ k, encodeAlu2 k p = alu2Word k imm dst src op) (decodeAlu2 imm dst src op) := by
  rcases nibble_cases op with
    rfl | rfl | rfl | rfl | rfl | rfl | rfl | rfl | rfl | rfl | rfl | rfl | rfl | rfl | rfl | rfl
  iterate 8 exact .of_plain (by decide) (by decide) fun k => rfl
  iterate 4 exact .of_plain (by decide) (by decide) fun k => by simp [encodeAlu2, encodeShift]
  iterate 2 exact .of_plain (by decide) (by decide) fun k => rfl
  · simp only [IllegalCode, ReservedCode, implicitCode_source]
    rcases nibble_cases src with
      rfl | rfl | rfl | rfl | rfl | rfl | rfl | rfl | rfl | rfl | rfl | rfl | rfl | rfl | rfl | rfl
    iterate 2 exact .reserved (by decide) (by decide)
    iterate 4 exact .listed (by decide) (by decide) fun k => rfl
    · exact .reserved (by decide) (by decide)
    iterate 6 exact .listed (by decide) (by decide) fun k => rfl
    iterate 3 exact .illegal (by decide)
  · simp only [IllegalCode, ReservedCode, implicitCode_destination, decodeAlu2]
    have h := decodeDst_reads dst
    generalize decodeDst dst = c at h
    cases h with
    | listed hi hr hsel => exact .listed hi hr fun k => by rw [← hsel, encodeAlu2]
    | illegal hi => exact .illegal hi
    | reserved hi hr => exact .reserved hi hr

/-- The decoder of an ALU3 piece, likewise. -/
theorem decodeAlu3_reads (imm : Bool) (dst op src2 src1 : BitVec 4) :
    ReadsCode (IllegalCode op src1 dst) (ReservedCode op src1 dst)
      (fun p => encodeAlu3 p = alu3Word imm dst op src2 src1) (decodeAlu3 imm dst op src2 src1) := by
  rcases nibble_cases op with
    rfl | rfl | rfl | rfl | rfl | rfl | rfl | rfl | rfl | rfl | rfl | rfl | rfl | rfl | rfl | rfl
  iterate 8 exact .of_plain (by decide) (by decide) rfl
  iterate 4 exact .of_plain (by decide) (by decide) (by simp [encodeAlu3, encodeShift])
  iterate 2 exact .of_plain (by decide) (by decide) rfl
  · simp only [IllegalCode, ReservedCode, implicitCode_source]
    rcases nibble_cases src1 with
      rfl | rfl | rfl | rfl | rfl | rfl | rfl | rfl | rfl | rfl | rfl | rfl | rfl | rfl | rfl | rfl
    iterate 2 exact .reserved (by decide) (by decide)
    iterate 4 exact .listed (by decide) (by decide) rfl
    · exact .reserved (by decide) (by decide)
    iterate 6 exact .listed (by decide) (by decide) rfl
    iterate 3 exact .illegal (by decide)
  · simp only [IllegalCode, ReservedCode, implicitCode_destination, decodeAlu3]
    have h := decodeDst_reads dst
    generalize decodeDst dst = c at h
    cases h with
    | listed hi hr hsel => exact .listed hi hr (by rw [← hsel, encodeAlu3])
    | illegal hi => exact .illegal hi
    | reserved hi hr => exact .reserved hi hr

/-- No condition code is illegal; 1110 and 1111 are reserved (42_control.md R171). -/
theorem decodeCond_reads (code : BitVec 4) :
    ReadsCode False (code ∈ [14#4, 15]) (fun c => encodeCond c = code) (decodeCond code) := by
  rcases nibble_cases code with
    rfl | rfl | rfl | rfl | rfl | rfl | rfl | rfl | rfl | rfl | rfl | rfl | rfl | rfl | rfl | rfl
  iterate 14 exact .listed not_false (by decide) rfl
  iterate 2 exact .reserved not_false (by decide)

/-! ### Every piece and every condition has a code -/

theorem decodeDst_encodeDst (sel : DstSel) : decodeDst (encodeDst sel) = .listed sel := by
  cases sel <;> rfl

theorem decodeCond_encodeCond (c : Cond) : decodeCond (encodeCond c) = .listed c := by
  cases c <;> rfl

theorem exists_decodeAlu2_eq_listed (p : Alu2) :
    ∃ imm dst src op, decodeAlu2 imm dst src op = .listed p := by
  cases p with
  | mov imm dst src => exact ⟨imm, dst, src, 0, rfl⟩
  | bin op imm dst src => exact ⟨imm, dst, src, encodeBin op, by cases op <;> rfl⟩
  | ic imm dst src => exact ⟨imm, dst, src, 13, rfl⟩
  | shift op dst n =>
    exact ⟨n.getLsbD 4, dst, n.extractLsb' 0 4, encodeShift op, by
      cases op <;> simp [decodeAlu2, encodeShift]⟩
  | fromSpecial sel imm dst => exact ⟨imm, dst, encodeSrc sel, 14, by cases sel <;> rfl⟩
  | shiftLo op imm dst => exact ⟨imm, dst, encodeShift op, 14, by cases op <;> rfl⟩
  | not imm dst => exact ⟨imm, dst, 12, 14, rfl⟩
  | toSpecial sel imm src =>
    exact ⟨imm, encodeDst sel, src, 15, by simp [decodeAlu2, decodeDst_encodeDst]⟩

theorem exists_decodeAlu3_eq_listed (p : Alu3) :
    ∃ imm dst op src2 src1, decodeAlu3 imm dst op src2 src1 = .listed p := by
  cases p with
  | mov imm dst src2 src1 => exact ⟨imm, dst, 0, src2, src1, rfl⟩
  | bin op imm dst src2 src1 => exact ⟨imm, dst, encodeBin op, src2, src1, by cases op <;> rfl⟩
  | ic imm dst src2 src1 => exact ⟨imm, dst, 13, src2, src1, rfl⟩
  | shift op dst src2 n =>
    exact ⟨n.getLsbD 4, dst, encodeShift op, src2, n.extractLsb' 0 4, by
      cases op <;> simp [decodeAlu3, encodeShift]⟩
  | fromSpecial sel imm dst src2 => exact ⟨imm, dst, 14, src2, encodeSrc sel, by cases sel <;> rfl⟩
  | shiftLo op imm dst src2 => exact ⟨imm, dst, 14, src2, encodeShift op, by cases op <;> rfl⟩
  | not imm dst src2 => exact ⟨imm, dst, 14, src2, 12, rfl⟩
  | toSpecial sel imm src2 src1 =>
    exact ⟨imm, encodeDst sel, 15, src2, src1, by simp [decodeAlu3, decodeDst_encodeDst]⟩

theorem encodeAlu2_of_decodeAlu2 {imm : Bool} {dst src op : BitVec 4} {p : Alu2}
    (h : decodeAlu2 imm dst src op = .listed p) (k : Nat) : encodeAlu2 k p = alu2Word k imm dst src op := by
  have hr := decodeAlu2_reads imm dst src op
  rw [h] at hr
  cases hr with
  | listed _ _ hp => exact hp k

theorem encodeAlu3_of_decodeAlu3 {imm : Bool} {dst op src2 src1 : BitVec 4} {p : Alu3}
    (h : decodeAlu3 imm dst op src2 src1 = .listed p) :
    encodeAlu3 p = alu3Word imm dst op src2 src1 := by
  have hr := decodeAlu3_reads imm dst op src2 src1
  rw [h] at hr
  cases hr with
  | listed _ _ hp => exact hp

/-! ### The codes as mask rows -/

/-- The rows of the words with one of these implicit codes, for the places of the ALU code, of the
implicit source and of the implicit destination. -/
def implicitRows (op src dst : Nat) (srcCodes dstCodes : List (BitVec 4)) : List MaskRow :=
  srcCodes.map (fun c => (fieldRow src c).both (fieldRow op 14#4)) ++
    dstCodes.map (fun c => (fieldRow dst c).both (fieldRow op 15#4))

theorem anyRow_implicitRows_iff {w : Word} {op src dst : Nat} {S D : List (BitVec 4)}
    (hop : op + 4 ≤ 32) (hsrc : src + 4 ≤ 32) (hdst : dst + 4 ≤ 32)
    (h : src + 4 ≤ op ∨ op + 4 ≤ src) (h' : dst + 4 ≤ op ∨ op + 4 ≤ dst) :
    anyRow (implicitRows op src dst S D) w = true ↔
      ImplicitCode S D (field w op 4) (field w src 4) (field w dst 4) := by
  simp only [anyRow_eq_true_iff, implicitRows, List.mem_append, List.mem_map, ImplicitCode]
  constructor
  · rintro ⟨_, ⟨c, hc, rfl⟩ | ⟨c, hc, rfl⟩, hm⟩
    · obtain ⟨rfl, hop'⟩ := (both_fieldRow_matches_iff hsrc hop h).1 hm
      exact .inl ⟨hop', hc⟩
    · obtain ⟨rfl, hop'⟩ := (both_fieldRow_matches_iff hdst hop h').1 hm
      exact .inr ⟨hop', hc⟩
  · rintro (⟨hop', hc⟩ | ⟨hop', hc⟩)
    · exact ⟨_, .inl ⟨_, hc, rfl⟩, (both_fieldRow_matches_iff hsrc hop h).2 ⟨rfl, hop'⟩⟩
    · exact ⟨_, .inr ⟨_, hc, rfl⟩, (both_fieldRow_matches_iff hdst hop h').2 ⟨rfl, hop'⟩⟩

theorem illegalAlu3Rows_eq :
    illegalAlu3Rows = implicitRows 20 0 24 [13, 14, 15] [12, 13, 14, 15] := by
  decide

theorem reservedAlu3Rows_eq : reservedAlu3Rows = implicitRows 20 0 24 [0, 1, 6] [0, 1, 6] := by
  decide

theorem illegalAlu2Rows_eq :
    illegalAlu2Rows = implicitRows 8 12 16 [13, 14, 15] [12, 13, 14, 15] := by
  decide

theorem reservedAlu2Rows_eq : reservedAlu2Rows = implicitRows 8 12 16 [0, 1, 6] [0, 1, 6] := by
  decide

theorem anyRow_reservedCondRows_iff {w : Word} :
    anyRow reservedCondRows w = true ↔ field w 20 4 ∈ [14#4, 15] := by
  rw [show reservedCondRows = [fieldRow 20 14#4, fieldRow 20 15#4] from by decide]
  simp [anyRow_eq_true_iff, fieldRow_matches_iff]

/-! ### The pieces and the condition of a word -/

/-- The fields of a word's ALU3 piece, in place, are the word under their mask. -/
theorem alu3Word_fields (w : Word) :
    alu3Word (flag w 29) (field w 24 4) (field w 20 4) (field w 4 4) (field w 0 4)
      = w &&& 0x2FF000FF#32 := by
  simp only [alu3Word, placeFlag_flag, ← and_place_allOnes, ← BitVec.and_or_distrib_left]
  rfl

/-- The fields of a word's ALU2 piece, in place, are the word under their mask. -/
theorem alu2Word_fields (w : Word) (k : Nat) :
    alu2Word k (flag w k) (field w 16 4) (field w 12 4) (field w 8 4)
      = w &&& (place 1#1 k ||| 0x000FFF00#32) := by
  simp only [alu2Word, placeFlag_flag, ← and_place_allOnes, ← BitVec.and_or_distrib_left,
    BitVec.or_assoc]
  rfl

theorem decodeAlu3_fields_reads (w : Word) :
    ReadsCode (anyRow illegalAlu3Rows w = true) (anyRow reservedAlu3Rows w = true)
      (fun p => encodeAlu3 p = w &&& 0x2FF000FF#32)
      (decodeAlu3 (flag w 29) (field w 24 4) (field w 20 4) (field w 4 4) (field w 0 4)) := by
  rw [illegalAlu3Rows_eq, reservedAlu3Rows_eq, anyRow_implicitRows_iff, anyRow_implicitRows_iff,
    ← alu3Word_fields]
  · exact decodeAlu3_reads ..
  all_goals omega

theorem decodeAlu2_fields_reads (w : Word) (k : Nat) :
    ReadsCode (anyRow illegalAlu2Rows w = true) (anyRow reservedAlu2Rows w = true)
      (fun p => encodeAlu2 k p = w &&& (place 1#1 k ||| 0x000FFF00#32))
      (decodeAlu2 (flag w k) (field w 16 4) (field w 12 4) (field w 8 4)) := by
  rw [illegalAlu2Rows_eq, reservedAlu2Rows_eq, anyRow_implicitRows_iff, anyRow_implicitRows_iff,
    ← alu2Word_fields]
  · exact (decodeAlu2_reads ..).imp fun p hp => hp k
  all_goals omega

theorem decodeCond_field_reads (w : Word) :
    ReadsCode False (anyRow reservedCondRows w = true)
      (fun c => place (encodeCond c) 20 = w &&& 0x00F00000#32) (decodeCond (field w 20 4)) := by
  rw [anyRow_reservedCondRows_iff]
  refine (decodeCond_reads _).imp fun c hc => ?_
  rw [hc, ← and_place_allOnes]
  rfl

end Sys2Proof
end

section
/-! PROOFS. What the decoder makes of every word: an illegal or a reserved word by name, or a well-formed
instruction of the one row the word matches, which encodes to that word (30_encoding.md R72 to R87). -/

namespace Sys2Proof

/-! ### ALU23 words under any of their rows -/

theorem encode_of_packing {i : Instr} {p3 : Alu3} {p2 : Alu2} (h : i.packing = some (p3, p2)) :
    encode i = encodeAlu23 p3 p2 := by
  cases i <;> cases h <;> rfl

theorem row_of_packing {i : Instr} {q : Alu3 × Alu2} (h : i.packing = some q) :
    i.row = some ⟨0xC0000000, 0x00000000⟩ := by
  cases i <;> cases h <;> rfl

/-- A piece's own row packs it with the idle piece, and is well formed unless the piece is idle too. -/
theorem ofAlu3_packing_wf (p : Alu3) : (Instr.ofAlu3 p).packing = some (p, Alu2.idle) ∧
    (p ≠ Alu3.idle → (Instr.ofAlu3 p).wf = true) := by
  cases p with
  | mov => exact ⟨rfl, bne_iff_ne.2⟩
  | bin op => cases op <;> exact ⟨rfl, fun _ => rfl⟩
  | shift op => cases op <;> exact ⟨rfl, fun _ => rfl⟩
  | fromSpecial sel => cases sel <;> exact ⟨rfl, fun _ => rfl⟩
  | shiftLo op => cases op <;> exact ⟨rfl, fun _ => rfl⟩
  | toSpecial sel => cases sel <;> exact ⟨rfl, fun _ => rfl⟩
  | ic | not => exact ⟨rfl, fun _ => rfl⟩

theorem packing_ofAlu3 (p : Alu3) : (Instr.ofAlu3 p).packing = some (p, Alu2.idle) :=
  (ofAlu3_packing_wf p).1

/-- A piece's own row packs it with the idle piece, and is well formed unless the piece is idle too. -/
theorem ofAlu2_packing_wf (p : Alu2) : (Instr.ofAlu2 p).packing = some (Alu3.idle, p) ∧
    (p ≠ Alu2.idle → (Instr.ofAlu2 p).wf = true) := by
  cases p with
  | mov => exact ⟨rfl, bne_iff_ne.2⟩
  | bin op => cases op <;> exact ⟨rfl, fun _ => rfl⟩
  | shift op => cases op <;> exact ⟨rfl, fun _ => rfl⟩
  | fromSpecial sel => cases sel <;> exact ⟨rfl, fun _ => rfl⟩
  | shiftLo op => cases op <;> exact ⟨rfl, fun _ => rfl⟩
  | toSpecial sel => cases sel <;> exact ⟨rfl, fun _ => rfl⟩
  | ic | not => exact ⟨rfl, fun _ => rfl⟩

theorem packing_ofAlu2 (p : Alu2) : (Instr.ofAlu2 p).packing = some (Alu3.idle, p) :=
  (ofAlu2_packing_wf p).1

theorem packing_packPieces (p3 : Alu3) (p2 : Alu2) : (packPieces p3 p2).packing = some (p3, p2) := by
  unfold packPieces
  split_ifs with h2 h3 h3
  · rfl
  · rw [h2, packing_ofAlu3]
  · rw [h3, packing_ofAlu2]
  · rfl

theorem wf_packPieces (p3 : Alu3) (p2 : Alu2) : (packPieces p3 p2).wf = true := by
  unfold packPieces
  split_ifs with h2 h3 h3
  · simp [Instr.wf, h2, h3]
  · exact (ofAlu3_packing_wf p3).2 h3
  · exact (ofAlu2_packing_wf p2).2 h2
  · simp [Instr.wf, h2, h3]

/-! ### What a word is read as -/

/-- What a word is read as: the names of R85 and R86 exactly for the words they are for, and for every
other word an instruction of its row that keeps every bit. -/
inductive ReadsWord (w : Word) : Instr → Prop
  | illegal (hi : illegalWord w = true) : ReadsWord w (.illegal w)
  | reserved (hi : illegalWord w = false) (hr : reservedWord w = true) : ReadsWord w (.reserved w)
  | legal {i r} (hi : illegalWord w = false) (hr : reservedWord w = false) (hmem : r ∈ opcodeRows)
      (hw : r.Matches w) (hrow : i.row = some r) (hwf : i.wf = true) (he : encode i = w) : ReadsWord w i

variable {w : Word} {r₀ r : MaskRow}

/-- A word is its row's match with the other bits in place. -/
theorem MaskRow.Matches.eq_word {x : Word} (h : r.Matches w) (hx : x = r.bits ||| (w &&& ~~~r.mask)) :
    x = w := by
  rw [hx, ← h, ← BitVec.and_or_distrib_left, BitVec.or_not_self, BitVec.and_allOnes]

theorem readsWord_illegal (h : r.Matches w) (hr : illegalWordRows.any r.within = true := by decide) :
    ReadsWord w (.illegal w) := by
  obtain ⟨r', hmem, hin⟩ := List.any_eq_true.1 hr
  exact .illegal (by rw [illegalWord, (h.of_within hin).anyRow_of_mem hmem, Bool.true_or, Bool.true_or])

/-- The words of SCND by its code alone, whatever their low part (45_setcond_trap.md R241). -/
def setHost : MaskRow := ⟨0xFE000000, 0xF4000000⟩

/-- A word is reserved by a piece, or in a host of a condition by the condition or SCND's low part. -/
theorem reservedWord_eq (w : Word) :
    reservedWord w = (anyRow alu3Hosts w && anyRow reservedAlu3Rows w
      || anyRow alu2Hosts w && anyRow reservedAlu2Rows w
      || anyRow condHosts w &&
        (anyRow reservedCondRows w || anyRow [setHost] w && w &&& 0x00000FFF != 0)) := by
  have hset : (w &&& 0xFE000000 == 0xF4000000) = anyRow [setHost] w := by simp [anyRow, setHost]
  rw [reservedWord, hset]
  cases h : anyRow [setHost] w with
  | false => simp
  | true =>
    have hcond : anyRow condHosts w = true := by
      obtain ⟨_, hmem, hm⟩ := anyRow_eq_true_iff.1 h
      exact hm.anyRow_of_mem (List.mem_singleton.1 hmem ▸ by decide)
    simp [hcond, Bool.or_assoc]

/-- A row of the opcode map with no word in the illegal rows or in these. -/
def MaskRow.outside (r : MaskRow) (rows : List MaskRow) : Bool :=
  opcodeRows.contains r && illegalWordRows.all r.apart && rows.all r.apart

theorem MaskRow.Matches.of_outside {rows : List MaskRow} (h : r.Matches w) (hr : r.outside rows = true) :
    r ∈ opcodeRows ∧ anyRow illegalWordRows w = false ∧ anyRow rows w = false := by
  simp only [MaskRow.outside, Bool.and_eq_true, List.contains_iff_mem] at hr
  obtain ⟨⟨hmem, hword⟩, hrows⟩ := hr
  exact ⟨hmem, h.anyRow_of_apart hword, h.anyRow_of_apart hrows⟩

theorem anyRow_append_eq_false {rows rows' : List MaskRow} :
    anyRow (rows ++ rows') w = false ↔ anyRow rows w = false ∧ anyRow rows' w = false := by
  rw [anyRow, List.any_append, Bool.or_eq_false_iff]
  rfl

/-- A word of a row that carries no code is read as the row's instruction. The arguments with a default are
evaluated from the row and the instruction: only the word's own match is given. -/
theorem readsWord_plain {i : Instr} (h₀ : r₀.Matches w) (hrow : i.row = some r := by rfl)
    (hin : r₀.within r = true := by decide) (hwf : i.wf = true := by rfl)
    (hr : r.outside (alu3Hosts ++ (alu2Hosts ++ condHosts)) = true := by decide)
    (he : encode i = r.bits ||| (w &&& ~~~r.mask) := by
      simp only [encode, ← and_place_allOnes, BitVec.or_assoc, ← BitVec.and_or_distrib_left]; rfl) :
    ReadsWord w i := by
  have h := h₀.of_within hin
  obtain ⟨hmem, hword, hrows⟩ := h.of_outside hr
  obtain ⟨h3, h2, hc⟩ := (anyRow_append_eq_false.trans (and_congr_right' anyRow_append_eq_false)).1 hrows
  refine .legal ?_ ?_ hmem h hrow hwf (h.eq_word he)
  · simp [illegalWord, hword, h3, h2]
  · simp [reservedWord_eq, h3, h2, hc]

/-- A word of a row that carries an ALU2 piece alone, read by that piece's code. -/
theorem readsWord_withAlu2 {k : Nat} {host : Alu2 → Instr} (h₀ : r₀.Matches w)
    (hrow : ∀ p, (host p).row = some r := by intro; rfl) (hin : r₀.within r = true := by decide)
    (hwf : ∀ p, (host p).wf = true := by intro; rfl)
    (hr : r.outside (alu3Hosts ++ condHosts) = true := by decide) (hhost : r ∈ alu2Hosts := by decide)
    (he : ∀ p, encodeAlu2 k p = w &&& (place 1#1 k ||| 0x000FFF00#32) →
        encode (host p) = r.bits ||| (w &&& ~~~r.mask) := by
      intro p hp
      simp only [encode, hp, ← and_place_allOnes, BitVec.or_assoc, ← BitVec.and_or_distrib_left]; rfl) :
    ReadsWord w (withAlu2 w k host) := by
  have h := h₀.of_within hin
  obtain ⟨hmem, hword, hrows⟩ := h.of_outside hr
  obtain ⟨h3, hc⟩ := anyRow_append_eq_false.1 hrows
  have h2 := h.anyRow_of_mem hhost
  have hill : illegalWord w = anyRow illegalAlu2Rows w := by simp [illegalWord, hword, h3, h2]
  have hres : reservedWord w = anyRow reservedAlu2Rows w := by simp [reservedWord_eq, h3, h2, hc]
  have hp := decodeAlu2_fields_reads w k
  rw [← hill, ← hres] at hp
  unfold withAlu2
  generalize decodeAlu2 .. = c at hp
  cases hp with
  | listed hi hr hp =>
    rw [Bool.not_eq_true] at hi hr
    exact .legal hi hr hmem h (hrow _) (hwf _) (h.eq_word (he _ hp))
  | illegal hi => exact .illegal hi
  | reserved hi hr => exact .reserved (Bool.not_eq_true _ ▸ hi) hr

/-- A word of a row that carries a condition, read by the condition's code; SCND words have their low part
zero. -/
theorem readsWord_withCond {host : Cond → Instr} (h : r.Matches w)
    (hset : (anyRow [setHost] w && w &&& 0x00000FFF != 0) = false)
    (hrow : ∀ c, (host c).row = some r := by intro; rfl) (hwf : ∀ c, (host c).wf = true := by intro; rfl)
    (hr : r.outside (alu3Hosts ++ alu2Hosts) = true := by decide)
    (hhost : anyRow condHosts w = true)
    (he : ∀ c, place (encodeCond c) 20 = w &&& 0x00F00000#32 →
        encode (host c) = r.bits ||| (w &&& ~~~r.mask) := by
      intro c hc
      simp only [encode, encodeHost, hc, placeFlag_flag, ← and_place_allOnes, BitVec.or_assoc,
        ← BitVec.and_or_distrib_left]
      rfl) :
    ReadsWord w (withCond w host) := by
  obtain ⟨hmem, hword, hrows⟩ := h.of_outside hr
  obtain ⟨h3, h2⟩ := anyRow_append_eq_false.1 hrows
  have hill : illegalWord w = false := by simp [illegalWord, hword, h3, h2]
  have hres : reservedWord w = anyRow reservedCondRows w := by
    simp only [reservedWord_eq, h3, h2, hhost, hset, Bool.false_and, Bool.false_or, Bool.true_and,
      Bool.or_false]
  have hc := decodeCond_field_reads w
  rw [← hres] at hc
  unfold withCond
  generalize decodeCond .. = c at hc
  cases hc with
  | listed hi hr hc =>
    exact .legal hill (Bool.not_eq_true _ ▸ hr) hmem h (hrow _) (hwf _) (h.eq_word (he _ hc))
  | illegal hi => exact hi.elim
  | reserved hi hr => exact .reserved hill hr

/-- An ALU23 word is read by the codes of both its pieces, an illegal one before a reserved one
(60_exceptions.md R262). -/
theorem decodeAlu23_reads (h : (⟨0xC0000000, 0⟩ : MaskRow).Matches w) : ReadsWord w (decodeAlu23 w) := by
  obtain ⟨hmem, hword, hc⟩ := h.of_outside (rows := condHosts) (by decide)
  have h3 := h.anyRow_of_mem (rows := alu3Hosts) (by decide)
  have h2 := h.anyRow_of_mem (rows := alu2Hosts) (by decide)
  have hill : illegalWord w = (anyRow illegalAlu3Rows w || anyRow illegalAlu2Rows w) := by
    simp [illegalWord, hword, h3, h2]
  have hres : reservedWord w = (anyRow reservedAlu3Rows w || anyRow reservedAlu2Rows w) := by
    simp [reservedWord_eq, h3, h2, hc]
  have hp3 := decodeAlu3_fields_reads w
  have hp2 := decodeAlu2_fields_reads w 28
  unfold decodeAlu23
  generalize decodeAlu3 .. = c3 at hp3
  generalize decodeAlu2 .. = c2 at hp2
  cases hp3 with
  | illegal hi3 => exact .illegal (by simp [hill, hi3])
  | reserved hi3 hr3 =>
    cases hp2 with
    | illegal hi2 => exact .illegal (by simp [hill, hi2])
    | reserved hi2 hr2 => exact .reserved (by simp [hill, hi3, hi2]) (by simp [hres, hr3])
    | listed hi2 hr2 hp2 => exact .reserved (by simp [hill, hi3, hi2]) (by simp [hres, hr3])
  | @listed p3 hi3 hr3 hp3 =>
    cases hp2 with
    | illegal hi2 => exact .illegal (by simp [hill, hi2])
    | reserved hi2 hr2 => exact .reserved (by simp [hill, hi3, hi2]) (by simp [hres, hr2])
    | @listed p2 hi2 hr2 hp2 =>
      refine .legal (by simp [hill, hi3, hi2]) (by simp [hres, hr3, hr2]) hmem h
        (row_of_packing (packing_packPieces p3 p2)) (wf_packPieces p3 p2) (h.eq_word ?_)
      rw [encode_of_packing (packing_packPieces p3 p2), encodeAlu23, hp3, hp2, ← BitVec.and_or_distrib_left]
      exact BitVec.zero_or.symm

/-! ### The words of a selector -/

theorem eq_ofNat_of_toNat_eq {n a : Nat} {x : BitVec n} (h : x.toNat = a) : x = BitVec.ofNat n a := by
  rw [← h, BitVec.ofNat_toNat, BitVec.setWidth_eq]

/-- The row of the words whose bits 31:28 are `a`. -/
def groupRow (a : Nat) : MaskRow := fieldRow 28 (BitVec.ofNat 4 a)

theorem groupRow_matches {a : Nat} (h : (field w 28 4).toNat = a) : (groupRow a).Matches w :=
  (fieldRow_matches_iff (by omega)).2 (eq_ofNat_of_toNat_eq h)

/-- The row of the words whose bits 31:28 are `a` and whose bits 27:24 are `b`. -/
def codeRow (a b : Nat) : MaskRow := (groupRow a).both (fieldRow 24 (BitVec.ofNat 4 b))

theorem codeRow_matches {a b : Nat} (h : (field w 28 4).toNat = a) (h' : (field w 24 4).toNat = b) :
    (codeRow a b).Matches w :=
  (both_fieldRow_matches_iff (by omega) (by omega) (by omega)).2
    ⟨eq_ofNat_of_toNat_eq h, eq_ofNat_of_toNat_eq h'⟩

/-- The row of group B whose bits 7:5 are `b`. -/
def indexedRow (b : Nat) : MaskRow := (groupRow 13).both (fieldRow 5 (BitVec.ofNat 3 b))

theorem indexedRow_matches {b : Nat} (h : (field w 28 4).toNat = 13) (h' : (field w 5 3).toNat = b) :
    (indexedRow b).Matches w :=
  (both_fieldRow_matches_iff (by omega) (by omega) (by omega)).2
    ⟨eq_ofNat_of_toNat_eq h, eq_ofNat_of_toNat_eq h'⟩

/-! ### The groups -/

theorem decodeGroupB_reads (h : (field w 28 4).toNat = 13) : ReadsWord w (decodeGroupB w) := by
  unfold decodeGroupB
  split
  iterate 4 next h' => exact readsWord_withAlu2 (indexedRow_matches h h')
  next =>
    have h' : (field w 5 3).toNat = 4 ∨ (field w 5 3).toNat = 5 ∨ (field w 5 3).toNat = 6 ∨
        (field w 5 3).toNat = 7 := by
      simp only [imp_false] at *
      omega
    rcases h' with h' | h' | h' | h' <;> exact readsWord_illegal (indexedRow_matches h h')

theorem decodeGroupC_reads (h : (field w 28 4).toNat = 14) : ReadsWord w (decodeGroupC w) := by
  unfold decodeGroupC
  split
  iterate 4 next h' => exact readsWord_withAlu2 (codeRow_matches h h')
  iterate 7 next h' => exact readsWord_plain (codeRow_matches h h')
  next =>
    have h' : (field w 24 4).toNat = 0 ∨ (field w 24 4).toNat = 1 ∨ (field w 24 4).toNat = 2 ∨
        (field w 24 4).toNat = 3 ∨ (field w 24 4).toNat = 15 := by
      simp only [imp_false] at *
      omega
    rcases h' with h' | h' | h' | h' | h' <;> exact readsWord_illegal (codeRow_matches h h')

theorem decodeBranch_reads (h : (⟨0xFE000000, 0xF0000000⟩ : MaskRow).Matches w) :
    ReadsWord w (decodeBranch w) := by
  have hset := h.anyRow_of_apart (rows := [setHost]) (by decide)
  exact readsWord_withCond h (by rw [hset, Bool.false_and]) (hhost := h.anyRow_of_mem (by decide))

theorem decodeTrap_reads (h : (⟨0xFE000000, 0xF2000000⟩ : MaskRow).Matches w) :
    ReadsWord w (decodeTrap w) := by
  have hset := h.anyRow_of_apart (rows := [setHost]) (by decide)
  exact readsWord_withCond h (by rw [hset, Bool.false_and]) (hhost := h.anyRow_of_mem (by decide))

/-- SCND's low part as a row of its own: the words where it is zero. -/
theorem lowPart_eq_zero_iff : w &&& 0x00000FFF#32 = 0#32 ↔ field w 0 12 = 0 :=
  fieldRow_matches_iff (lo := 0) (v := 0#12) (by omega)

/-- An SCND word is read by its condition if its low part is zero, and else is reserved
(45_setcond_trap.md R241). -/
theorem decodeSet_reads (h : setHost.Matches w) : ReadsWord w (decodeSet w) := by
  have hhost : anyRow condHosts w = true := h.anyRow_of_mem (by decide)
  have hset : anyRow [setHost] w = true := h.anyRow_of_mem (List.mem_singleton_self _)
  unfold decodeSet
  split_ifs with hlow
  · have hrow : (⟨0xFE000FFF, 0xF4000000⟩ : MaskRow).Matches w :=
      (h.both ((fieldRow_matches_iff (by omega)).2 hlow)).of_within (by decide)
    rw [← lowPart_eq_zero_iff] at hlow
    exact readsWord_withCond hrow (by simp [hlow]) (hhost := hhost)
  · have hill : illegalWord w = false := by
      simp [illegalWord, h.anyRow_of_apart (rows := illegalWordRows) (by decide),
        h.anyRow_of_apart (rows := alu3Hosts) (by decide),
        h.anyRow_of_apart (rows := alu2Hosts) (by decide)]
    refine .reserved hill ?_
    rw [← lowPart_eq_zero_iff] at hlow
    simp [reservedWord_eq, hhost, hset, hlow]

theorem decodeGroupD_reads (h : (field w 28 4).toNat = 15) : ReadsWord w (decodeGroupD w) := by
  unfold decodeGroupD
  split
  iterate 2 next h' => exact decodeBranch_reads ((codeRow_matches h h').of_within (by decide))
  iterate 2 next h' => exact decodeTrap_reads ((codeRow_matches h h').of_within (by decide))
  iterate 2 next h' => exact decodeSet_reads ((codeRow_matches h h').of_within (by decide))
  iterate 4 next h' => exact readsWord_plain (codeRow_matches h h')
  next =>
    have h' : (field w 24 4).toNat = 6 ∨ (field w 24 4).toNat = 7 ∨ (field w 24 4).toNat = 10 ∨
        (field w 24 4).toNat = 11 ∨ (field w 24 4).toNat = 12 ∨ (field w 24 4).toNat = 13 := by
      simp only [imp_false] at *
      omega
    rcases h' with h' | h' | h' | h' | h' | h' <;> exact readsWord_illegal (codeRow_matches h h')

/-- The decoder reads every word as it should be read. -/
theorem decode_reads (w : Word) : ReadsWord w (decode w) := by
  unfold decode
  split
  iterate 4 next h => exact readsWord_withAlu2 (groupRow_matches h)
  iterate 5 next h => exact readsWord_plain (groupRow_matches h)
  next h => exact decodeGroupB_reads h
  next h => exact decodeGroupC_reads h
  next h => exact decodeGroupD_reads h
  next =>
    have h : (field w 28 4).toNat = 0 ∨ (field w 28 4).toNat = 1 ∨ (field w 28 4).toNat = 2 ∨
        (field w 28 4).toNat = 3 := by
      simp only [imp_false] at *
      omega
    rcases h with h | h | h | h <;>
      exact decodeAlu23_reads ((groupRow_matches h).of_within (by decide))

end Sys2Proof
end

section
/-! PROOFS. The decoder's answer settles what it names, which row it reads a word under and that no bit is
lost (30_encoding.md R72 to R87). -/

namespace Sys2Proof

/-- Settles O2: an instruction keeps its row's match and every other bit, and an illegal or a reserved term
holds its word. -/
theorem encodeOfDecode : Obligations.EncodeOfDecode := by
  intro w
  have h := decode_reads w
  generalize decode w = i at h
  cases h with
  | illegal hi => exact ⟨rfl, hi⟩
  | reserved hi hr => exact ⟨rfl, by simp [Instr.wf, hi, hr]⟩
  | legal _ _ _ _ _ hwf he => exact ⟨he, hwf⟩

/-- Settles O3: a legal reading has a row, which an illegal or a reserved term has not. -/
theorem illegalAndReservedWordsExact : Obligations.IllegalAndReservedWordsExact := by
  intro w
  have h := decode_reads w
  generalize decode w = i at h
  cases h with
  | illegal hi => simp [hi]
  | reserved hi hr => simp [hi, hr]
  | legal hi hr _ _ hrow =>
    have hill : ∀ v, i ≠ .illegal v := by
      rintro v rfl
      cases hrow
    have hres : ∀ v, i ≠ .reserved v := by
      rintro v rfl
      cases hrow
    simp [hi, hr, hill, hres]

/-- Settles O4: the rows share no words, so the row a word is read under is the only one it matches. -/
theorem opcodeMapRows : Obligations.OpcodeMapRows := by
  constructor
  · intro w r hrow
    have h := decode_reads w
    generalize decode w = i at h hrow
    cases h with
    | illegal => cases hrow
    | reserved => cases hrow
    | legal _ _ hmem hw hrow' =>
      obtain rfl := Option.some.inj (hrow'.symm.trans hrow)
      exact ⟨hmem, hw⟩
  · intro w r hmem hw hill hres
    have h := decode_reads w
    generalize decode w = i at h
    cases h with
    | illegal hi => exact absurd (hi.symm.trans hill) (by decide)
    | reserved _ hr => exact absurd (hr.symm.trans hres) (by decide)
    | legal _ _ hmem' hw' hrow => rw [hrow, eq_of_matches_opcodeRows hmem' hmem hw' hw]

/-- Settles O5: each word is evaluated. -/
theorem writtenOutWordsDecode : Obligations.WrittenOutWordsDecode := by
  refine ⟨?_, ?_, ?_, ?_, ?_, ?_, ?_, ?_, ?_⟩ <;> decide

end Sys2Proof
end

section
/-! PROOFS. The words that are no instruction are refused, and a piece beside an idle one runs alone
(30_encoding.md R85, R86, R89). -/

namespace Sys2Proof.Machine

/-- Settles O48: the meanings of the two terms are these refusals. -/
theorem illegalAndReservedRefused : Obligations.IllegalAndReservedRefused :=
  fun _ _ => ⟨rfl, rfl⟩

theorem setReg_reg_self (t : State) (k : Reg) : setReg t k (reg t k) = t := by
  simp [setReg, reg]

/-- An ALU2 move of a register into itself changes nothing (R89). -/
theorem runAlu2_mov_self (k : Reg) (t : State) : runAlu2 (.mov false k k) t = t :=
  setReg_reg_self t k

/-- An ALU3 move of a register into itself changes nothing (R89). -/
theorem runAlu3_mov_self (k src2 : Reg) (t : State) : runAlu3 (.mov false k src2 k) t = t :=
  setReg_reg_self t k

theorem runAlu2_idle (t : State) : runAlu2 Alu2.idle t = t := runAlu2_mov_self 0 t

theorem runAlu3_idle (t : State) : runAlu3 Alu3.idle t = t := runAlu3_mov_self 0 0 t

theorem plain_advance (s : State) : Plain {} s (advance s) := by
  refine ⟨?_, ?_, ?_⟩ <;> constructor <;> intros <;> rfl

theorem exec_movSelf {k j : Reg} {s : State} (src2 : Reg) (h : NotLoading [k, j] s) :
    exec (.alu23 (.mov false k src2 k) (.mov false j j)) s = .next (advance s) := by
  rw [exec_of_packing rfl, packed_eq_next, loadPending_eq_false]
  refine ⟨?_, ?_, ?_, ?_⟩
  · simp [alu3Privileged, alu2Privileged]
  · exact fun r hr => h r (by simpa [alu3Regs, alu2Regs, operandRegs] using hr)
  · simp [alu3Pc]
  · rw [runAlu2_mov_self, runAlu3_mov_self]

theorem exec_eq_alu23 {i : Instr} {p3 : Alu3} {p2 : Alu2} (h : i.packing = some (p3, p2)) :
    exec i = exec (.alu23 p3 p2) :=
  (exec_of_packing h).trans (exec_of_packing (i := .alu23 p3 p2) rfl).symm

theorem eq_of_exec_packing {i : Instr} {p3 : Alu3} {p2 : Alu2} {s t : State}
    (h : i.packing = some (p3, p2)) (ht : exec i s = .next t) :
    t = runAlu2 p2 (runAlu3 p3 (advance s)) := by
  rw [exec_of_packing h, packed_eq_next] at ht
  obtain ⟨-, -, -, ht⟩ := ht
  exact ht.symm

/-- Settles O28: a register moved into itself leaves the state, and a piece's own row packs it with the
idle piece. -/
theorem idlePieces : Obligations.IdlePieces := by
  refine ⟨by decide, ?_, ?_, ?_⟩
  · intro k src2 j s h
    exact ⟨_, exec_movSelf src2 h, plain_advance s⟩
  · intro p s
    have hp := packing_ofAlu3 p
    refine ⟨congrFun (exec_eq_alu23 hp) s, fun t ht => ?_⟩
    rw [eq_of_exec_packing hp ht, runAlu2_idle]
  · intro p s
    have hp := packing_ofAlu2 p
    refine ⟨congrFun (exec_eq_alu23 hp) s, fun t ht => ?_⟩
    rw [eq_of_exec_packing hp ht, runAlu3_idle, alone]

end Sys2Proof.Machine
end

section
/-! PROOFS. Decoding is the inverse of encoding: each field and flag of an encoded word reads back what was
placed there, beside the constant of its row (30_encoding.md R72 to R84). -/

namespace Sys2Proof

/-! ### The constant parts of a word -/

@[simp] theorem field_ofNat (x lo n : Nat) (h : lo + n ≤ 32) :
    field (BitVec.ofNat 32 x) lo n = BitVec.ofNat n (x >>> lo) := by
  apply BitVec.eq_of_getLsbD_eq
  intro i hi
  simp only [field, BitVec.getLsbD_extractLsb', BitVec.getLsbD_ofNat, Nat.testBit_shiftRight,
    show lo + i < 32 by omega, decide_true, Bool.true_and]

@[simp] theorem flag_ofNat (x k : Nat) (h : k < 32) :
    flag (BitVec.ofNat 32 x) k = decide (x / 2 ^ k % 2 = 1) := by
  simp only [flag, BitVec.getLsbD_ofNat, h, decide_true, Bool.true_and, Nat.testBit_eq_decide_div_mod_eq]

@[simp] theorem placeFlag_true (k : Nat) : placeFlag true k = BitVec.ofNat 32 (1 <<< k) := by
  apply BitVec.eq_of_toNat_eq
  simp [placeFlag, place]

@[simp] theorem placeFlag_false (k : Nat) : placeFlag false k = 0#32 := by
  simp [placeFlag, place]

/-! ### ALU23 words -/

theorem decode_encodeAlu23 (p3 : Alu3) (p2 : Alu2) : decode (encodeAlu23 p3 p2) = packPieces p3 p2 := by
  obtain ⟨imm3, dst3, op3, src2, src1, h3⟩ := exists_decodeAlu3_eq_listed p3
  obtain ⟨imm2, dst2, src, op2, h2⟩ := exists_decodeAlu2_eq_listed p2
  rw [encodeAlu23, encodeAlu3_of_decodeAlu3 h3, encodeAlu2_of_decodeAlu2 h2, alu3Word, alu2Word]
  cases imm3 <;> cases imm2 <;>
    simp [decode, decodeAlu23, h3, h2, field_or, field_place_same, field_place_other, flag_or,
      flag_place_other]

/-- A well-formed ALU23 term is the one its two pieces are read as (log entry 10). -/
theorem packPieces_of_packing {i : Instr} {p3 : Alu3} {p2 : Alu2} (h : i.packing = some (p3, p2))
    (hwf : i.wf = true) : packPieces p3 p2 = i := by
  cases i
  all_goals cases h
  case alu23 =>
    have hidle : p3 = Alu3.idle ↔ p2 = Alu2.idle := by simpa [Instr.wf] using hwf
    by_cases h2 : p2 = Alu2.idle <;> simp [packPieces, hidle, h2]
  case mov3 =>
    have hne := bne_iff_ne.1 hwf
    simp [packPieces, hne, Instr.ofAlu3]
  case mov2 =>
    have hne := bne_iff_ne.1 hwf
    simp [packPieces, hne, Instr.ofAlu2]
  all_goals rfl

/-! ### Branches, traps and sets -/

theorem encode_ofCond (c : Cond) (h : CondHost) : encode (Instr.ofCond c h) = encodeHost c h := by
  cases c <;> rfl

theorem decode_encodeHost (c : Cond) (h : CondHost) : decode (encodeHost c h) = h.instr c := by
  have hc := decodeCond_encodeCond c
  cases h with
  | branch imm | set imm =>
    cases imm <;>
      simp [encodeHost, decode, decodeGroupD, decodeBranch, decodeSet, withCond, hc, CondHost.instr,
        field_or, field_place_same, field_place_other, flag_or, flag_place_other]
  | trap imm _ _ _ bit0 =>
    cases imm <;> cases bit0 <;>
      simp [encodeHost, decode, decodeGroupD, decodeTrap, withCond, hc, CondHost.instr, field_or,
        field_place_same, field_place_other, flag_or, flag_place_other]

/-- The two spellings of a condition's word (42_control.md R172). -/
theorem eq_of_condition {i : Instr} {c : Cond} {h : CondHost} (hi : i.condition = some (c, h)) :
    i = Instr.ofCond c h ∨ i = h.instr c := by
  cases i <;> cases hi
  case bcnd | trap | scnd => exact .inr rfl
  all_goals exact .inl rfl

/-! ### The other words -/

/-- A word that is neither ALU23's nor a condition's: its constant part selects its row, and its fields read
back beside it. -/
theorem decode_encode_of_packing_eq_none {i : Instr} (hp : i.packing = none) (hc : i.condition = none)
    (hwf : i.wf = true) : decode (encode i) = i := by
  cases i with
  | illegal w => exact (illegalAndReservedWordsExact w).1.2 hwf
  | reserved w =>
    obtain ⟨-, h, -⟩ := illegalAndReservedWordsExact w
    exact h.2 (by simpa [Instr.wf] using hwf)
  | lbalu _ _ p | sbalu _ _ p | libalu _ _ p | sibalu _ _ p | lsbalu _ _ p | ssbalu _ _ p | jibalu _ p
  | spcalu _ p =>
    obtain ⟨imm, dst, src, op, h⟩ := exists_decodeAlu2_eq_listed p
    simp only [encode, encodeAlu2_of_decodeAlu2 h, alu2Word]
    cases imm <;>
      simp [decode, decodeGroupB, decodeGroupC, withAlu2, h, field_or, field_place_same,
        field_place_other, flag_or, flag_place_other]
  | ldl | lbi | std | sbi | ldi | jind | jbind | spc | spcb | jdrct | jbase | bucnd | lds | sts | savepc
  | jindss =>
    simp [encode, decode, decodeGroupC, decodeGroupD, field_or, field_place_same, field_place_other]
  | _ => cases hp <;> cases hc

/-- Settles O1: by what the term is, an ALU23 word, a condition's word or neither. -/
theorem decodeOfEncode : Obligations.DecodeOfEncode := by
  constructor
  · intro i hwf hne
    cases hp : i.packing with
    | some q => rw [encode_of_packing hp, decode_encodeAlu23, packPieces_of_packing hp hwf]
    | none =>
    cases hc : i.condition with
    | some q =>
      rw [(eq_of_condition hc).resolve_left (hne _ _), Laws.DecodedFormKeepsWord.encode_host,
        decode_encodeHost]
    | none => exact decode_encode_of_packing_eq_none hp hc hwf
  · intro c h
    rw [encode_ofCond, decode_encodeHost]

end Sys2Proof
end

section
/-! PROOFS. What the two pieces of an ALU23 word leave unchanged, and the order they run in (40_alu.md
R100 to R103). -/

namespace Sys2Proof.Machine

variable {s t u : State} {c : Changes}

/-- Past what no piece changes, a frame is about the general registers and Hi, Lo, Db, Ap and Ma. -/
theorem PieceKeeps.onlyChanges (k : PieceKeeps t u) (regs : ∀ r, r ∉ c.regs → reg u r = reg t r)
    (hi : c.hi = false → u.hi = t.hi) (lo : c.lo = false → u.lo = t.lo)
    (db : c.db = false → u.db = t.db) (ap : c.ap = false → u.ap = t.ap)
    (ma : c.ma = false → u.ma = t.ma) : OnlyChanges c t u where
  regs := regs
  bytes _ _ := by rw [k.mem]
  hi := hi
  lo := lo
  db := db
  ap := ap
  ma := ma
  suReg _ := k.suReg
  mar _ := k.mar
  disp _ := k.disp
  pcp1 _ := k.pcp1
  draws _ := k.draws
  memDomain := k.memDomain
  codeDomain := k.codeDomain
  supWords := k.supWords

/-- The sequencing before the stages is outside every frame. -/
theorem OnlyChanges.of_advance (h : OnlyChanges c (advance s) t) : OnlyChanges c s t :=
  { h with }

theorem onlyChanges_setReg (t : State) (r : Reg) (v : Word) :
    OnlyChanges { regs := [r] } t (setReg t r v) :=
  (setReg_keeps t r v).onlyChanges
    (fun _ hr => reg_setReg_other t v (List.ne_of_not_mem_cons hr))
    (fun _ => rfl) (fun _ => rfl) (fun _ => rfl) (fun _ => rfl) (fun _ => rfl)

@[simp] theorem mulUnsignedEnd_lo (a : Word) (r : MulDiv) : (mulUnsignedEnd a r).lo = r.lo := by
  unfold mulUnsignedEnd
  split <;> rfl

@[simp] theorem mulUnsignedEnd_db (a : Word) (r : MulDiv) : (mulUnsignedEnd a r).db = r.db := by
  unfold mulUnsignedEnd
  split <;> rfl

/-- An implicit destination writes its own special registers (41_alu_special.md R143 to R155). -/
theorem onlyChanges_writeSpecial (t : State) (sel : DstSel) (a : Word) (imm : Bool) (src : Reg) :
    OnlyChanges (pieceChanges (.toSpecial sel imm src)) t (writeSpecial t sel a) := by
  have k := writeSpecial_keeps t sel a
  have hreg : ∀ r, r ∉ (pieceChanges (.toSpecial sel imm src)).regs →
      reg (writeSpecial t sel a) r = reg t r := fun _ _ => reg_writeSpecial ..
  cases sel with
  | ap => exact k.onlyChanges hreg (fun _ => rfl) (fun _ => rfl) (fun _ => rfl) nofun (fun _ => rfl)
  | ma => exact k.onlyChanges hreg (fun _ => rfl) (fun _ => rfl) (fun _ => rfl) (fun _ => rfl) nofun
  | hi => exact k.onlyChanges hreg nofun (fun _ => rfl) (fun _ => rfl) (fun _ => rfl) (fun _ => rfl)
  | lo => exact k.onlyChanges hreg (fun _ => rfl) nofun (fun _ => rfl) (fun _ => rfl) (fun _ => rfl)
  | pc =>
    exact k.onlyChanges hreg (fun _ => rfl) (fun _ => rfl) (fun _ => rfl) (fun _ => rfl) (fun _ => rfl)
  | msetup | mstep => exact k.onlyChanges hreg nofun nofun nofun (fun _ => rfl) (fun _ => rfl)
  | umend =>
    exact k.onlyChanges hreg nofun (fun _ => mulUnsignedEnd_lo ..) (fun _ => mulUnsignedEnd_db ..)
      (fun _ => rfl) (fun _ => rfl)
  | dstep => exact k.onlyChanges hreg nofun nofun (fun _ => rfl) (fun _ => rfl) (fun _ => rfl)

theorem onlyChanges_runAlu2 (p : Alu2) (t : State) :
    OnlyChanges (pieceChanges p) t (runAlu2 p t) := by
  cases p with
  | toSpecial => exact onlyChanges_writeSpecial ..
  | _ => exact onlyChanges_setReg ..

/-- An ALU3 piece with an implicit destination may change what an ALU2 piece with it may. -/
theorem alu3Changes_toSpecial (sel : DstSel) (imm : Bool) (src2 src1 : Reg) :
    alu3Changes (.toSpecial sel imm src2 src1) = pieceChanges (.toSpecial sel imm src1) := by
  cases sel <;> rfl

theorem onlyChanges_runAlu3 (p : Alu3) (t : State) :
    OnlyChanges (alu3Changes p) t (runAlu3 p t) := by
  cases p with
  | toSpecial =>
    rw [alu3Changes_toSpecial]
    exact onlyChanges_writeSpecial ..
  | _ => exact onlyChanges_setReg ..

/-- What an ALU23 word leaves of a state: sequencing, the ALU3 piece, the ALU2 piece. -/
def afterPacked (p3 : Alu3) (p2 : Alu2) (s : State) : State := runAlu2 p2 (runAlu3 p3 (advance s))

theorem exec_eq_next_of_packing {i : Instr} {p3 : Alu3} {p2 : Alu2}
    (h : i.packing = some (p3, p2))
    (hpriv : alu3Privileged p3 = true ∨ alu2Privileged p2 = true → supervisor s = true)
    (hload : NotLoading (alu3Regs p3 ++ alu2Regs p2) s)
    (hpc : alu3Pc p3 = true → s.jd2Prev = false) :
    exec i s = .next (afterPacked p3 p2 s) := by
  rw [exec_of_packing h]
  exact packed_eq_next.2 ⟨hpriv, loadPending_eq_false.2 hload, hpc, rfl⟩

theorem pieces_keep (p3 : Alu3) (p2 : Alu2) (s : State) :
    PieceKeeps (advance s) (afterPacked p3 p2 s) :=
  (runAlu3_keeps ..).trans (runAlu2_keeps ..)

/-- The two frames together: a component neither piece may change is as before both. -/
theorem onlyChanges_afterPacked (p3 : Alu3) (p2 : Alu2) (s : State) :
    OnlyChanges (bothChanges p3 p2) s (afterPacked p3 p2 s) := by
  have h3 := onlyChanges_runAlu3 p3 (advance s)
  have h2 := onlyChanges_runAlu2 p2 (runAlu3 p3 (advance s))
  have hboth : OnlyChanges (bothChanges p3 p2) (advance s) (afterPacked p3 p2 s) := by
    refine (pieces_keep p3 p2 s).onlyChanges (fun r hr => ?_) ?_ ?_ ?_ ?_ ?_
    · obtain ⟨hr3, hr2⟩ := not_or.1 (mt List.mem_append.2 hr)
      exact (h2.regs r hr2).trans (h3.regs r hr3)
    all_goals
      intro hc
      obtain ⟨hc3, hc2⟩ := Bool.or_eq_false_iff.1 hc
    · exact (h2.hi hc2).trans (h3.hi hc3)
    · exact (h2.lo hc2).trans (h3.lo hc3)
    · exact (h2.db hc2).trans (h3.db hc3)
    · exact (h2.ap hc2).trans (h3.ap hc3)
    · exact (h2.ma hc2).trans (h3.ma hc3)
  exact hboth.of_advance

theorem notes_afterPacked (p3 : Alu3) (p2 : Alu2) (s : State) :
    Notes none false false (afterPacked p3 p2 s) :=
  have k := pieces_keep p3 p2 s
  ⟨k.ldPrev, k.jd2Prev, k.ldsPrev⟩

/-- Settles O27: the checks pass, and the frames of the pieces add up; two `mstep` pieces touch Hi, Lo and
Db only, and the second reads what the first left there. -/
theorem packedPiecesRunInOrder : Obligations.PackedPiecesRunInOrder := by
  intro p3 p2 s hpriv hload hpc
  have hexec : exec (.alu23 p3 p2) s = .next (afterPacked p3 p2 s) :=
    exec_eq_next_of_packing rfl (fun h => hpriv (Bool.or_eq_true_iff.2 h)) hload hpc
  have hframe := onlyChanges_afterPacked p3 p2 s
  have hnotes := notes_afterPacked p3 p2 s
  refine ⟨⟨_, hexec, rfl, hframe, hnotes⟩, ?_⟩
  rintro imm imm' src2 src1 src t rfl rfl ht
  obtain rfl := Host.Outcome.next.inj (hexec.symm.trans ht)
  exact ⟨rfl, hframe, ⟨rfl, rfl, rfl, rfl, rfl, rfl⟩, hnotes⟩

end Sys2Proof.Machine
end

section
/-! PROOFS. The results of the ALU operations as the rules state them (40_alu.md R112, R117 to R119): the
model writes shifts over two words as a disjunction of two shifts, and characters as byte fields. -/

namespace Sys2Proof.Machine

theorem toNat_extractLsb'_five (lo : Word) : (lo.extractLsb' 0 5).toNat = lo.toNat % 32 := by
  simp

theorem toNat_extractLsb'_two (lo : Word) : (lo.extractLsb' 0 2).toNat = lo.toNat % 4 := by
  simp

/-- The high word of `B || A` shifted left: the bits of B, then the highest bits of A. -/
theorem extractLsb'_append_shiftLeft (a b : Word) {n : Nat} (hn : n < 32) :
    ((b ++ a : BitVec 64) <<< n).extractLsb' 32 32 = (b <<< n) ||| (a >>> (32 - n)) := by
  refine BitVec.eq_of_getLsbD_eq fun i hi => ?_
  simp only [BitVec.getLsbD_extractLsb', BitVec.getLsbD_shiftLeft, BitVec.getLsbD_append,
    BitVec.getLsbD_or, BitVec.getLsbD_ushiftRight, hi, decide_true, Bool.true_and]
  have hdouble : 32 + i < 64 := by omega
  have hshifted : ¬ 32 + i < n := by omega
  by_cases hin : i < n
  · have hlow : 32 + i - n < 32 := by omega
    have hbit : 32 - n + i = 32 + i - n := by omega
    simp [hdouble, hshifted, hin, hlow, hbit]
  · have hhigh : ¬ 32 + i - n < 32 := by omega
    have hbit : 32 + i - n - 32 = i - n := by omega
    have hnone : a.getLsbD (32 - n + i) = false := BitVec.getLsbD_of_ge a _ (by omega)
    simp [hdouble, hshifted, hin, hhigh, hbit, hnone]

/-- `rlc` is a shift of the double word (R112). -/
theorem combinedShift_eq (a b lo : Word) :
    combinedShift a b lo = ((b ++ a : BitVec 64) <<< (lo.toNat % 32)).extractLsb' 32 32 := by
  rw [extractLsb'_append_shiftLeft a b (Nat.mod_lt _ (by decide))]
  simp only [combinedShift, toNat_extractLsb'_five]
  split
  next h => simp [h, BitVec.ushiftRight_eq_zero]
  next => rfl

/-- `rol` is the rotation (R117). -/
theorem shiftResult_rol (b : Word) (n : BitVec 5) : shiftResult .rol b n = b.rotateLeft n.toNat := by
  simp only [shiftResult, BitVec.rotateLeft, BitVec.rotateLeftAux, Nat.mod_eq_of_lt n.isLt]
  split
  next h => simp [h, BitVec.ushiftRight_eq_zero]
  next => rfl

/-- A zero-extended byte is the word shifted down to it, under a mask (decision D4). -/
theorem setWidth_byteOf (v : Word) (k : Nat) :
    (byteOf v k).setWidth 32 = (v >>> (8 * k)) &&& 0xFF := by
  apply BitVec.eq_of_toNat_eq
  have hmask : v.toNat >>> (8 * k) &&& 255 = v.toNat >>> (8 * k) % 256 :=
    Nat.and_two_pow_sub_one_eq_mod _ 8
  simp [byteOf, hmask]
  omega

/-- `xc` (R118). -/
theorem extractChar_eq (a b : Word) :
    extractChar a b = (b >>> (8 * (a.toNat % 4))) &&& 0xFF := by
  rw [extractChar, setWidth_byteOf, toNat_extractLsb'_two]

/-- `ic` (R119). -/
theorem insertChar_eq (a old lo : Word) :
    insertChar a old lo =
      (old &&& ~~~((0xFF : Word) <<< (8 * (lo.toNat % 4)))) |||
        ((a &&& 0xFF) <<< (8 * (lo.toNat % 4))) := by
  simp only [insertChar, setWidth_byteOf, toNat_extractLsb'_two, Nat.mul_zero,
    BitVec.ushiftRight_zero]

end Sys2Proof.Machine
end

section
/-! PROOFS. The codes and counts in the word of an ALU piece (30_encoding.md R72, R82, R84; 40_alu.md
R113). -/

namespace Sys2Proof.Machine

variable {i : Instr} {p3 : Alu3} {p2 : Alu2}

/-- The fields of the ALU3 piece stand in the word of every row of ALU23. -/
theorem alu3_fields_of_packing {imm : Bool} {dst op src2 src1 : BitVec 4}
    (h : i.packing = some (p3, p2)) (h3 : encodeAlu3 p3 = alu3Word imm dst op src2 src1) :
    flag (encode i) 29 = imm ∧ field (encode i) 24 4 = dst ∧ field (encode i) 20 4 = op ∧
      field (encode i) 0 4 = src1 := by
  obtain ⟨imm2, dst2, src, op2, h2⟩ := exists_decodeAlu2_eq_listed p2
  rw [encode_of_packing h, encodeAlu23, h3, encodeAlu2_of_decodeAlu2 h2, alu3Word, alu2Word]
  cases imm <;> cases imm2 <;>
    simp [field_or, field_place_same, field_place_other, flag_or, flag_place_other]

/-- The fields of the ALU2 piece stand in the word of every row of ALU23. -/
theorem alu2_fields_of_packing {imm : Bool} {dst src op : BitVec 4}
    (h : i.packing = some (p3, p2)) (h2 : encodeAlu2 28 p2 = alu2Word 28 imm dst src op) :
    flag (encode i) 28 = imm ∧ field (encode i) 16 4 = dst ∧ field (encode i) 12 4 = src ∧
      field (encode i) 8 4 = op := by
  obtain ⟨imm3, dst3, op3, src2, src1, h3⟩ := exists_decodeAlu3_eq_listed p3
  rw [encode_of_packing h, encodeAlu23, h2, encodeAlu3_of_decodeAlu3 h3, alu3Word, alu2Word]
  cases imm <;> cases imm3 <;>
    simp [field_or, field_place_same, field_place_other, flag_or, flag_place_other]

theorem hasAlu3_of_packing {imm : Bool} {dst op src2 src1 : BitVec 4}
    (h : i.packing = some (p3, p2)) (h3 : encodeAlu3 p3 = alu3Word imm dst op src2 src1) :
    HasAlu3 i op := by
  obtain ⟨-, -, hop, -⟩ := alu3_fields_of_packing h h3
  exact hop

theorem hasAlu2_of_packing {imm : Bool} {dst src op : BitVec 4}
    (h : i.packing = some (p3, p2)) (h2 : encodeAlu2 28 p2 = alu2Word 28 imm dst src op) :
    HasAlu2 i op := by
  obtain ⟨-, -, -, hop⟩ := alu2_fields_of_packing h h2
  exact hop

theorem ofBool_getLsbD_append (n : BitVec 5) :
    BitVec.ofBool (n.getLsbD 4) ++ n.extractLsb' 0 4 = n :=
  ofBool_append_extractLsb' n

/-- The count of an ALU3 shift is the flag i' above src1 (R113). -/
theorem hasAlu3Count_of_packing {op : ShiftOp} {dst src2 : Reg} {n : BitVec 5}
    (h : i.packing = some (.shift op dst src2 n, p2)) : HasAlu3Count i n := by
  obtain ⟨hflag, -, -, hsrc1⟩ := alu3_fields_of_packing h rfl
  change BitVec.ofBool (flag (encode i) 29) ++ field (encode i) 0 4 = n
  rw [hflag, hsrc1, ofBool_getLsbD_append]

/-- The count of an ALU2 shift is the flag i above src (R113). -/
theorem hasAlu2Count_of_packing {op : ShiftOp} {dst : Reg} {n : BitVec 5}
    (h : i.packing = some (p3, .shift op dst n)) : HasAlu2Count i n := by
  obtain ⟨hflag, -, hsrc, -⟩ := alu2_fields_of_packing h rfl
  change BitVec.ofBool (flag (encode i) 28) ++ field (encode i) 12 4 = n
  rw [hflag, hsrc, ofBool_getLsbD_append]

end Sys2Proof.Machine
end

section
/-! PROOFS. The ALU operations alone in their word: the result in the destination register, and nothing
else changed (40_alu.md R105 to R119; 30_encoding.md R89). -/

namespace Sys2Proof.Machine

variable {i : Instr} {p3 : Alu3} {p2 : Alu2} {dst : Reg} {v : Word} {s : State}

theorem plain_setReg_advance (s : State) (dst : Reg) (v : Word) :
    Plain { regs := [dst] } s (setReg (advance s) dst v) :=
  ⟨(onlyChanges_setReg (advance s) dst v).of_advance, ⟨rfl, rfl, rfl, rfl, rfl, rfl⟩,
    ⟨rfl, rfl, rfl⟩⟩

/-- An ALU23 word no check stops, whose two pieces together write one register, yields what they write. -/
theorem yields_of_packing (h : i.packing = some (p3, p2))
    (hpriv : alu3Privileged p3 = true ∨ alu2Privileged p2 = true → supervisor s = true)
    (hload : NotLoading (alu3Regs p3 ++ alu2Regs p2) s)
    (hpc : alu3Pc p3 = true → s.jd2Prev = false)
    (hrun : afterPacked p3 p2 s = setReg (advance s) dst v) : Yields i dst v s :=
  ⟨_, (exec_eq_next_of_packing h hpriv hload hpc).trans (congrArg _ hrun), reg_setReg_same ..,
    plain_setReg_advance ..⟩

/-- An ALU3 piece alone: the idle piece behind it uses R0 and changes nothing (R89). -/
theorem yields_ofAlu3 (hpriv : alu3Privileged p3 = true → supervisor s = true)
    (hpc : alu3Pc p3 = true → s.jd2Prev = false) (hload : NotLoading (0 :: alu3Regs p3) s)
    (hrun : runAlu3 p3 (advance s) = setReg (advance s) dst v) : Yields (.ofAlu3 p3) dst v s := by
  refine yields_of_packing (packing_ofAlu3 p3) ?_ ?_ hpc ((runAlu2_idle _).trans hrun)
  · rintro (h | h)
    · exact hpriv h
    · cases h
  · intro r hr
    refine hload r ?_
    rcases List.mem_append.1 hr with h | h
    · exact List.mem_cons_of_mem _ h
    · simp_all [alu2Regs, Alu2.idle, operandRegs]

/-- An ALU2 piece alone: the idle piece before it uses R0 and changes nothing (R89). -/
theorem yields_ofAlu2 (hpriv : alu2Privileged p2 = true → supervisor s = true)
    (hload : NotLoading (0 :: alu2Regs p2) s)
    (hrun : runAlu2 p2 (advance s) = setReg (advance s) dst v) : Yields (.ofAlu2 p2) dst v s := by
  refine yields_of_packing (packing_ofAlu2 p2) ?_ ?_ nofun ?_
  · rintro (h | h)
    · cases h
    · exact hpriv h
  · intro r hr
    refine hload r ?_
    rcases List.mem_append.1 hr with h | h
    · simp_all [alu3Regs, Alu3.idle, operandRegs]
    · exact List.mem_cons_of_mem _ h
  · rw [afterPacked, runAlu3_idle, hrun]

/-! ### The operations in each piece -/

section
variable {imm : Bool} {src2 src1 src : Reg}

theorem yields_bin3 (op : BinOp) (h : NotLoading ([0, dst, src2] ++ sourceRegs imm src1) s) :
    Yields (.ofAlu3 (.bin op imm dst src2 src1)) dst
      (binResult op (source s imm src1) (reg s src2) s.lo) s :=
  yields_ofAlu3 nofun nofun h rfl

theorem yields_bin2 (op : BinOp) (h : NotLoading ([0, dst] ++ sourceRegs imm src) s) :
    Yields (.ofAlu2 (.bin op imm dst src)) dst
      (binResult op (source s imm src) (reg s dst) s.lo) s :=
  yields_ofAlu2 nofun h rfl

theorem yields_shift3 (op : ShiftOp) (n : BitVec 5) (h : NotLoading [0, dst, src2] s) :
    Yields (.ofAlu3 (.shift op dst src2 n)) dst (shiftResult op (reg s src2) n) s :=
  yields_ofAlu3 nofun nofun h rfl

theorem yields_shift2 (op : ShiftOp) (n : BitVec 5) (h : NotLoading [0, dst] s) :
    Yields (.ofAlu2 (.shift op dst n)) dst (shiftResult op (reg s dst) n) s :=
  yields_ofAlu2 nofun h rfl

theorem yields_ic3 (h : NotLoading ([0, dst] ++ sourceRegs imm src1) s) :
    Yields (.ic3 imm dst src2 src1) dst (insertChar (source s imm src1) (reg s dst) s.lo) s :=
  yields_ofAlu3 (p3 := .ic imm dst src2 src1) nofun nofun h rfl

theorem yields_ic2 (h : NotLoading ([0, dst] ++ sourceRegs imm src) s) :
    Yields (.ic2 imm dst src) dst (insertChar (source s imm src) (reg s dst) s.lo) s :=
  yields_ofAlu2 (p2 := .ic imm dst src) nofun h rfl

end

/-! ### The statements -/

/-- Settles O10: three of the two-operand operations. -/
theorem arithmeticResults : Obligations.ArithmeticResults :=
  ⟨fun _ _ _ _ _ h => ⟨yields_bin3 .add h, yields_bin3 .sub h, yields_bin3 .subr h⟩,
    fun _ _ _ _ h => ⟨yields_bin2 .add h, yields_bin2 .sub h, yields_bin2 .subr h⟩⟩

/-- Settles O11: three more, with the codes of their words. -/
theorem logicResults : Obligations.LogicResults := by
  constructor
  · intro imm dst src2 src1 s h a b
    exact ⟨yields_bin3 .and h, hasAlu3_of_packing rfl rfl, yields_bin3 .or h,
      hasAlu3_of_packing rfl rfl, yields_bin3 .xor h, hasAlu3_of_packing rfl rfl⟩
  · intro imm dst src s h a b
    exact ⟨yields_bin2 .and h, hasAlu2_of_packing rfl rfl, yields_bin2 .or h,
      hasAlu2_of_packing rfl rfl, yields_bin2 .xor h, hasAlu2_of_packing rfl rfl⟩

/-- Settles O12: `rlc` is the shift of the double word. -/
theorem combinedShiftResults : Obligations.CombinedShiftResults := by
  constructor
  · intro imm dst src2 src1 s h
    rw [← combinedShift_eq]
    exact ⟨yields_bin3 .rlc h, hasAlu3_of_packing rfl rfl⟩
  · intro imm dst src s h
    rw [← combinedShift_eq]
    exact ⟨yields_bin2 .rlc h, hasAlu2_of_packing rfl rfl⟩

/-- Settles O13: the four shifts, of which `rol` is the rotation, with the codes and the counts of their
words. -/
theorem immediateShiftResults : Obligations.ImmediateShiftResults := by
  constructor
  · intro dst src2 n
    refine ⟨fun s h => ?_, hasAlu3_of_packing rfl rfl, hasAlu3Count_of_packing rfl,
      hasAlu3_of_packing rfl rfl, hasAlu3Count_of_packing rfl,
      hasAlu3_of_packing rfl rfl, hasAlu3Count_of_packing rfl,
      hasAlu3_of_packing rfl rfl, hasAlu3Count_of_packing rfl⟩
    exact ⟨yields_shift3 .sll n h, yields_shift3 .srl n h, yields_shift3 .sra n h,
      shiftResult_rol (reg s src2) n ▸ yields_shift3 .rol n h⟩
  · intro dst n
    refine ⟨fun s h => ?_, hasAlu2_of_packing rfl rfl, hasAlu2Count_of_packing rfl,
      hasAlu2_of_packing rfl rfl, hasAlu2Count_of_packing rfl,
      hasAlu2_of_packing rfl rfl, hasAlu2Count_of_packing rfl,
      hasAlu2_of_packing rfl rfl, hasAlu2Count_of_packing rfl⟩
    exact ⟨yields_shift2 .sll n h, yields_shift2 .srl n h, yields_shift2 .sra n h,
      shiftResult_rol (reg s dst) n ▸ yields_shift2 .rol n h⟩

/-- Settles O14: `xc` reads src2, which `ic` does not. -/
theorem characterResults : Obligations.CharacterResults := by
  constructor
  · intro imm dst src2 src1 s h a k
    rw [← extractChar_eq, ← insertChar_eq]
    refine ⟨fun hsrc2 => yields_bin3 .xc fun r hr => ?_, yields_ic3 h⟩
    have hr' : r ∈ [src2] ∨ r ∈ [0, dst] ++ sourceRegs imm src1 := by
      simp only [List.mem_append, List.mem_cons] at hr ⊢
      tauto
    exact hr'.elim (hsrc2 r) (h r)
  · intro imm dst src s h a k
    rw [← extractChar_eq, ← insertChar_eq]
    exact ⟨yields_bin2 .xc h, yields_ic2 h⟩

/-- Settles O15: the operand of each form. -/
theorem moveResults : Obligations.MoveResults :=
  ⟨fun imm dst src2 src1 _ h =>
      ⟨yields_ofAlu3 (p3 := .mov imm dst src2 src1) nofun nofun h rfl, hasAlu3_of_packing rfl rfl⟩,
    fun imm dst src _ h =>
      ⟨yields_ofAlu2 (p2 := .mov imm dst src) nofun h rfl, hasAlu2_of_packing rfl rfl⟩⟩

end Sys2Proof.Machine
end

section
/-! PROOFS. The moves, shifts and steps with an implicit operand, alone in their word: their codes, what
each reads, and what it writes and leaves unchanged (41_alu_special.md R130 to R155). -/

namespace Sys2Proof.Machine

variable {i : Instr} {p3 : Alu3} {p2 : Alu2} {dst : Reg} {imm : Bool} {src2 src1 src : Reg} {s : State}

/-! ### Codes -/

theorem hasAlu3Source_of_packing (sel : SrcSel)
    (h : i.packing = some (.fromSpecial sel imm dst src2, p2)) : HasAlu3Source i (encodeSrc sel) := by
  obtain ⟨-, -, hop, hsrc⟩ := alu3_fields_of_packing h rfl
  exact ⟨hop, hsrc⟩

theorem hasAlu2Source_of_packing (sel : SrcSel)
    (h : i.packing = some (p3, .fromSpecial sel imm dst)) : HasAlu2Source i (encodeSrc sel) := by
  obtain ⟨-, -, hsrc, hop⟩ := alu2_fields_of_packing h rfl
  exact ⟨hop, hsrc⟩

theorem hasAlu3Dest_of_packing (sel : DstSel)
    (h : i.packing = some (.toSpecial sel imm src2 src1, p2)) : HasAlu3Dest i (encodeDst sel) := by
  obtain ⟨-, hdst, hop, -⟩ := alu3_fields_of_packing h rfl
  exact ⟨hop, hdst⟩

theorem hasAlu2Dest_of_packing (sel : DstSel)
    (h : i.packing = some (p3, .toSpecial sel imm src)) : HasAlu2Dest i (encodeDst sel) := by
  obtain ⟨-, hdst, -, hop⟩ := alu2_fields_of_packing h rfl
  exact ⟨hop, hdst⟩

/-! ### Implicit sources -/

/-- The sequencing changes no special register but the PC, which a move reads in its own stage. -/
theorem specialValue_advance (s : State) (sel : SrcSel) (pc : Word) :
    specialValue (advance s) sel pc = specialValue s sel pc := by
  cases sel <;> rfl

/-- An implicit-source move in OD, where PC(current) is the old `pc1`. -/
theorem yields_fromSpecial3 (sel : SrcSel) (h : NotLoading [0, dst] s)
    (hpriv : srcPrivileged sel = true → supervisor s = true := by nofun)
    (hpc : (sel == .pc) = true → s.jd2Prev = false := by nofun) :
    Yields (.ofAlu3 (.fromSpecial sel imm dst src2)) dst (specialValue s sel s.pc1) s :=
  yields_ofAlu3 hpriv hpc h (congrArg (setReg (advance s) dst) (specialValue_advance ..))

/-- An implicit-source move in SX, where PC(current) is the old `pc2`. -/
theorem yields_fromSpecial2 (sel : SrcSel) (h : NotLoading [0, dst] s)
    (hpriv : srcPrivileged sel = true → supervisor s = true := by nofun) :
    Yields (.ofAlu2 (.fromSpecial sel imm dst)) dst (specialValue s sel s.pc2) s :=
  yields_ofAlu2 hpriv h (congrArg (setReg (advance s) dst) (specialValue_advance ..))

/-! ### Variable shifts and complement -/

/-- The variable shifts count by the five low bits of Lo (R137). -/
theorem toNat_loCount (s : State) : (loCount s).toNat = s.lo.toNat % 32 :=
  toNat_extractLsb'_five s.lo

theorem yields_shiftLo3 (op : ShiftOp) (h : NotLoading [0, dst, src2] s) :
    Yields (.ofAlu3 (.shiftLo op imm dst src2)) dst (shiftResult op (reg s src2) (loCount s)) s :=
  yields_ofAlu3 nofun nofun h rfl

theorem yields_shiftLo2 (op : ShiftOp) (h : NotLoading [0, dst] s) :
    Yields (.ofAlu2 (.shiftLo op imm dst)) dst (shiftResult op (reg s dst) (loCount s)) s :=
  yields_ofAlu2 nofun h rfl

/-! ### Implicit destinations -/

/-- What a piece with an implicit destination leaves of a state, alone in its word. -/
def afterSpecial (sel : DstSel) (a : Word) (s : State) : State := writeSpecial (advance s) sel a

/-- What an implicit destination may change, whatever its operand. -/
def specialChanges (sel : DstSel) : Changes := pieceChanges (.toSpecial sel false 0)

/-- The idle piece before or behind uses R0 beside the source. -/
theorem notLoading_idle_and_source (h : NotLoading ([0] ++ sourceRegs imm src) s) :
    NotLoading (operandRegs imm src ++ alu2Regs .idle) s ∧
      NotLoading (alu3Regs .idle ++ operandRegs imm src) s := by
  constructor <;>
  · intro r hr
    refine h r ?_
    rcases List.mem_append.1 hr with hr | hr <;>
      simp_all [alu2Regs, alu3Regs, Alu2.idle, Alu3.idle, operandRegs, sourceRegs]

theorem exec_toSpecial3 (sel : DstSel) (h : NotLoading ([0] ++ sourceRegs imm src) s)
    (hpriv : dstPrivileged sel = true → supervisor s = true := by nofun)
    (hpc : (sel == .pc) = true → s.jd2Prev = false := by nofun) :
    exec (.ofAlu3 (.toSpecial sel imm src2 src)) s = .next (afterSpecial sel (source s imm src) s) := by
  have hexec := exec_eq_next_of_packing (packing_ofAlu3 (.toSpecial sel imm src2 src))
    (fun hp => hpriv (hp.resolve_right nofun)) (notLoading_idle_and_source h).1 hpc
  rw [hexec, afterPacked, runAlu2_idle]
  rfl

theorem exec_toSpecial2 (sel : DstSel) (h : NotLoading ([0] ++ sourceRegs imm src) s)
    (hpriv : dstPrivileged sel = true → supervisor s = true := by nofun) :
    exec (.ofAlu2 (.toSpecial sel imm src)) s = .next (afterSpecial sel (source s imm src) s) := by
  have hexec := exec_eq_next_of_packing (packing_ofAlu2 (.toSpecial sel imm src))
    (fun hp => hpriv (hp.resolve_left nofun)) (notLoading_idle_and_source h).2 nofun
  rw [hexec, afterPacked, runAlu3_idle]
  rfl

theorem onlyChanges_afterSpecial (sel : DstSel) (a : Word) :
    OnlyChanges (specialChanges sel) s (afterSpecial sel a s) :=
  (onlyChanges_writeSpecial (advance s) sel a false 0).of_advance

theorem notes_afterSpecial (sel : DstSel) (a : Word) :
    Notes none false false (afterSpecial sel a s) :=
  have k := writeSpecial_keeps (advance s) sel a
  ⟨k.ldPrev, k.jd2Prev, k.ldsPrev⟩

/-- Every implicit destination but the PC leaves the sequencing. -/
theorem continues_afterSpecial {sel : DstSel} (hsel : sel ≠ .pc) (a : Word) :
    Continues s (afterSpecial sel a s) := by
  cases sel with
  | pc => exact absurd rfl hsel
  | _ => exact ⟨rfl, rfl, rfl, rfl, rfl, rfl⟩

theorem plain_afterSpecial (sel : DstSel) (a : Word) (hsel : sel ≠ .pc := by nofun) :
    Plain (specialChanges sel) s (afterSpecial sel a s) :=
  ⟨onlyChanges_afterSpecial .., continues_afterSpecial hsel a, notes_afterSpecial ..⟩

/-- `mov src,PC` jumps after one more instruction (R149). -/
theorem jumpsAfterOne_afterSpecial_pc (a : Word) : JumpsAfterOne a s (afterSpecial .pc a s) :=
  ⟨rfl, rfl, rfl, rfl, rfl, rfl⟩

/-! ### The moves and the variable shifts -/

theorem writeSpecial_advance_hi (s : State) (sel : DstSel) (a : Word) :
    (writeSpecial (advance s) sel a).hi = (writeSpecial s sel a).hi := by
  cases sel <;> rfl

/-- Settles O16: the ALU2 piece runs on what the step left, and writes no special register itself. -/
theorem movesFromHiAndLo : Obligations.MovesFromHiAndLo := by
  refine ⟨fun imm dst src2 s h => ?_, fun imm dst s h => ?_,
    fun sel imm imm' src2 src1 dst s t _ ht => ?_⟩
  · exact ⟨yields_fromSpecial3 .hi h, hasAlu3Source_of_packing .hi rfl, yields_fromSpecial3 .lo h,
      hasAlu3Source_of_packing .lo rfl⟩
  · exact ⟨yields_fromSpecial2 .hi h, hasAlu2Source_of_packing .hi rfl, yields_fromSpecial2 .lo h,
      hasAlu2Source_of_packing .lo rfl⟩
  · obtain rfl := eq_of_exec_packing rfl ht
    exact ⟨writeSpecial_advance_hi .., reg_setReg_same ..⟩

/-- Settles O17: in supervisor state no check stops the privileged moves. -/
theorem apAndMaMoves : Obligations.ApAndMaMoves := by
  refine fun s hsup => ⟨fun imm dst src2 h => ?_, fun imm src2 src h => ?_⟩
  · exact ⟨yields_fromSpecial3 .ap h fun _ => hsup, yields_fromSpecial3 .ma h fun _ => hsup,
      yields_fromSpecial2 .ap h fun _ => hsup, yields_fromSpecial2 .ma h fun _ => hsup⟩
  · exact ⟨⟨_, exec_toSpecial3 .ap h fun _ => hsup, rfl, plain_afterSpecial .ap _⟩,
      ⟨_, exec_toSpecial3 .ma h fun _ => hsup, rfl, plain_afterSpecial .ma _⟩,
      ⟨_, exec_toSpecial2 .ap h fun _ => hsup, rfl, plain_afterSpecial .ap _⟩,
      ⟨_, exec_toSpecial2 .ma h fun _ => hsup, rfl, plain_afterSpecial .ma _⟩⟩

/-- Settles O18: the shifts of O13 with the count from Lo, and the complement. -/
theorem variableShiftAndNotResults : Obligations.VariableShiftAndNotResults := by
  constructor
  · intro imm dst src2 s h
    dsimp only
    rw [← toNat_loCount]
    exact ⟨yields_shiftLo3 .sll h, yields_shiftLo3 .srl h, yields_shiftLo3 .sra h,
      shiftResult_rol (reg s src2) (loCount s) ▸ yields_shiftLo3 .rol h,
      yields_ofAlu3 (p3 := .not imm dst src2) nofun nofun h rfl⟩
  · intro imm dst s h
    dsimp only
    rw [← toNat_loCount]
    exact ⟨yields_shiftLo2 .sll h, yields_shiftLo2 .srl h, yields_shiftLo2 .sra h,
      shiftResult_rol (reg s dst) (loCount s) ▸ yields_shiftLo2 .rol h,
      yields_ofAlu2 (p2 := .not imm dst) nofun h rfl⟩

/-- Settles O19: Hi and Lo as implicit destinations of each piece. -/
theorem movesToHiAndLo : Obligations.MovesToHiAndLo := fun _ _ _ _ h =>
  ⟨⟨_, exec_toSpecial3 .hi h, rfl, plain_afterSpecial .hi _⟩, hasAlu3Dest_of_packing .hi rfl,
    ⟨_, exec_toSpecial3 .lo h, rfl, plain_afterSpecial .lo _⟩, hasAlu3Dest_of_packing .lo rfl,
    ⟨_, exec_toSpecial2 .hi h, rfl, plain_afterSpecial .hi _⟩, hasAlu2Dest_of_packing .hi rfl,
    ⟨_, exec_toSpecial2 .lo h, rfl, plain_afterSpecial .lo _⟩, hasAlu2Dest_of_packing .lo rfl⟩

/-- Settles O20: PC(current) of the piece's stage as the source, and the jump to it as the destination. -/
theorem pcMoves : Obligations.PcMoves := by
  refine ⟨fun imm dst src2 s h => ⟨fun hjump => ?_, ?_⟩,
    fun imm src2 src s h => ⟨fun hjump => ?_, ?_⟩⟩
  · exact yields_fromSpecial3 .pc h (hpc := fun _ => hjump)
  · exact yields_fromSpecial2 .pc h
  · exact ⟨_, exec_toSpecial3 .pc h (hpc := fun _ => hjump), jumpsAfterOne_afterSpecial_pc _,
      onlyChanges_afterSpecial .pc _, notes_afterSpecial ..⟩
  · exact ⟨_, exec_toSpecial2 .pc h, jumpsAfterOne_afterSpecial_pc _,
      onlyChanges_afterSpecial .pc _, notes_afterSpecial ..⟩

end Sys2Proof.Machine
end

section
/-! PROOFS. The multiply and divide steps (41_alu_special.md R151 to R155): what one step does to the
double word of Hi and Lo, and each step alone in its word. -/

namespace Sys2Proof.Machine

/-! ### Multiply steps -/

/-- The Booth table as a formula (R151). -/
theorem boothMultiple_eq (lo1 lo0 db : Bool) :
    boothMultiple lo1 lo0 db = -2 * (lo1.toNat : Int) + (lo0.toNat : Int) + (db.toNat : Int) := by
  revert lo1 lo0 db
  decide

/-- A multiply step is the Booth step of R152. -/
theorem boothStepped_mulStep {s t : State} {a : Word} {db : Bool}
    (h : mulDiv t = mulStep a ⟨s.hi, s.lo, db⟩) : BoothStepped a db s t := by
  obtain ⟨hhi, hlo, hdb⟩ := MulDiv.mk.inj h
  simp only [boothMultiple_eq] at hhi hlo
  exact ⟨hhi, hlo, hdb⟩

theorem mulUnsignedEnd_eq (a : Word) (r : MulDiv) :
    mulUnsignedEnd a r = { r with hi := if r.db then r.hi + a else r.hi } := by
  unfold mulUnsignedEnd
  split <;> rfl

/-- Settles O23: the table as a formula, and `umend` by whether Db is set. -/
theorem boothTables : Obligations.BoothTables := ⟨boothMultiple_eq, mulUnsignedEnd_eq⟩

/-- Settles O21: `mstep` is a step from the Db of the state, `msetup` one from a clear Db. -/
theorem multiplySteps : Obligations.MultiplySteps := by
  intro imm src2 src s h a
  have hstep : BoothStepped a s.db s (afterSpecial .mstep a s) := boothStepped_mulStep rfl
  have hsetup : BoothStepped a false s (afterSpecial .msetup a s) := boothStepped_mulStep rfl
  exact ⟨⟨_, exec_toSpecial3 .mstep h, hstep, plain_afterSpecial .mstep _⟩,
    hasAlu3Dest_of_packing .mstep rfl,
    ⟨_, exec_toSpecial2 .mstep h, hstep, plain_afterSpecial .mstep _⟩,
    hasAlu2Dest_of_packing .mstep rfl,
    ⟨_, exec_toSpecial3 .msetup h, hsetup, plain_afterSpecial .msetup _⟩,
    hasAlu3Dest_of_packing .msetup rfl,
    ⟨_, exec_toSpecial2 .msetup h, hsetup, plain_afterSpecial .msetup _⟩,
    hasAlu2Dest_of_packing .msetup rfl⟩

/-! ### Divide steps -/

/-- Hi after Hi and Lo have shifted left as one: Lo's highest bit enters it. -/
theorem extractLsb'_append_highBit (hi lo : Word) :
    (hi.extractLsb' 0 31 ++ lo.extractLsb' 31 1 : Word) =
      ((hi ++ lo : BitVec 64) <<< 1).extractLsb' 32 32 := by
  rw [extractLsb'_append_shiftLeft lo hi (by decide)]
  refine BitVec.eq_of_getLsbD_eq fun i hlt => ?_
  simp only [BitVec.getLsbD_append, BitVec.getLsbD_extractLsb', BitVec.getLsbD_or,
    BitVec.getLsbD_shiftLeft, BitVec.getLsbD_ushiftRight]
  cases i with
  | zero => simp
  | succ i => simp [hlt, show i < 31 by omega, BitVec.getLsbD_of_ge lo (31 + (i + 1)) (by omega)]

/-- Lo after them: the quotient bit enters it. -/
theorem extractLsb'_append_quotientBit (hi lo : Word) (negative : Bool) :
    (lo.extractLsb' 0 31 ++ BitVec.ofBool (!negative) : Word) =
      ((hi ++ lo : BitVec 64) <<< 1).extractLsb' 0 32 ||| if negative then 0 else 1 := by
  refine BitVec.eq_of_getLsbD_eq fun i hlt => ?_
  simp only [BitVec.getLsbD_append, BitVec.getLsbD_extractLsb', BitVec.getLsbD_or,
    BitVec.getLsbD_shiftLeft]
  cases i with
  | zero => cases negative <;> simp
  | succ i =>
    cases negative <;>
      simp [hlt, show i < 31 by omega, show i < 32 by omega, show i + 1 < 64 by omega]

/-- Hi after a divide step: the divisor added or subtracted by the sign of the old Hi (R155). -/
theorem divStep_hi (d : Word) (r : MulDiv) :
    (divStep d r).hi =
      if r.hi.msb then ((r.hi ++ r.lo : BitVec 64) <<< 1).extractLsb' 32 32 + d
      else ((r.hi ++ r.lo : BitVec 64) <<< 1).extractLsb' 32 32 - d := by
  rw [← extractLsb'_append_highBit, BitVec.msb_eq_getLsbD_last]
  rfl

/-- Lo after a divide step: the complement of the new sign at its right (R155). -/
theorem divStep_lo (d : Word) (r : MulDiv) :
    (divStep d r).lo =
      ((r.hi ++ r.lo : BitVec 64) <<< 1).extractLsb' 0 32 |||
        if (divStep d r).hi.msb then 0 else 1 := by
  rw [← extractLsb'_append_quotientBit, BitVec.msb_eq_getLsbD_last]
  rfl

/-- Settles O22: `umend` by whether Db is set, `dstep` in terms of the shifted double word. -/
theorem unsignedEndAndDivideSteps : Obligations.UnsignedEndAndDivideSteps := by
  intro imm src2 src s h a sum shifted high hi lo
  have hsum : (afterSpecial .umend a s).hi = sum :=
    congrArg MulDiv.hi (mulUnsignedEnd_eq a (mulDiv s))
  have hhi : (afterSpecial .dstep a s).hi = hi := divStep_hi a (mulDiv s)
  have hlo : (afterSpecial .dstep a s).lo = lo := by
    simp only [lo, ← hhi]
    exact divStep_lo a (mulDiv s)
  exact ⟨⟨_, exec_toSpecial3 .umend h, hsum, plain_afterSpecial .umend _⟩,
    hasAlu3Dest_of_packing .umend rfl,
    ⟨_, exec_toSpecial2 .umend h, hsum, plain_afterSpecial .umend _⟩,
    hasAlu2Dest_of_packing .umend rfl,
    ⟨_, exec_toSpecial3 .dstep h, hhi, hlo, plain_afterSpecial .dstep _⟩,
    hasAlu3Dest_of_packing .dstep rfl,
    ⟨_, exec_toSpecial2 .dstep h, hhi, hlo, plain_afterSpecial .dstep _⟩,
    hasAlu2Dest_of_packing .dstep rfl⟩

end Sys2Proof.Machine
end

section
/-! PROOFS. The multiply steps together (41_alu_special.md R156, R157): each step quarters one number, the
double word of Hi and Lo with what the rest of the multiplier in Lo will still contribute. -/

namespace Sys2Proof.Machine

/-- Hi and Lo as one double word, `Hi || Lo`. -/
def doubleWord (r : MulDiv) : BitVec 64 := r.hi ++ r.lo

theorem toInt_doubleWord (r : MulDiv) :
    (doubleWord r).toInt = 2 ^ 32 * r.hi.toInt + r.lo.toNat :=
  BitVec.toInt_append

/-! ### One step -/

theorem toNat_mod_four (x : Word) :
    x.toNat % 4 = 2 * (x.getLsbD 1).toNat + (x.getLsbD 0).toNat := by
  simp only [BitVec.getLsbD, Nat.toNat_testBit]
  omega

/-- The selected multiple: the two bits taken from Lo and the carry Db, less the carry left behind (R151,
R152). -/
theorem boothMultiple_eq_carry (lo : Word) (db : Bool) :
    boothMultiple (lo.getLsbD 1) (lo.getLsbD 0) db =
      ((lo.toNat % 4 : Nat) : Int) + (db.toNat : Int) - 4 * ((lo.getLsbD 1).toNat : Int) := by
  rw [boothMultiple_eq, toNat_mod_four]
  push_cast
  ring

/-- The sum of a multiply step fits its 34 bits (R152). -/
theorem toInt_boothSum (hi a : Word) (lo1 lo0 db : Bool) :
    (BitVec.ofInt 34 (hi.toInt + boothMultiple lo1 lo0 db * a.toInt)).toInt =
      hi.toInt + boothMultiple lo1 lo0 db * a.toInt := by
  have hhi := hi.le_toInt
  have hhi' := hi.toInt_lt
  have ha := a.le_toInt
  have ha' := a.toInt_lt
  obtain ⟨hmin, hmax⟩ : -2 ≤ boothMultiple lo1 lo0 db ∧ boothMultiple lo1 lo0 db ≤ 2 := by
    revert lo1 lo0 db
    decide
  generalize boothMultiple lo1 lo0 db = k at *
  apply BitVec.toInt_ofInt_eq_self (by decide) <;> interval_cases k <;> omega

/-- The sum and the rest of Lo stand in Hi and Lo as they stood, two places lower (R152). -/
theorem doubleWord_mulStep (a : Word) (r : MulDiv) :
    doubleWord (mulStep a r) =
      (BitVec.ofInt 34
        (r.hi.toInt + boothMultiple (r.lo.getLsbD 1) (r.lo.getLsbD 0) r.db * a.toInt) ++
        r.lo.extractLsb' 2 30 : BitVec 64) := by
  simp only [doubleWord, mulStep]
  generalize BitVec.ofInt 34 _ = sum
  refine BitVec.eq_of_getLsbD_eq fun i hi => ?_
  simp only [BitVec.getLsbD_append, BitVec.getLsbD_extractLsb']
  by_cases h30 : i < 30
  · simp [h30, show i < 32 by omega]
  · by_cases h32 : i < 32
    · simp [h30, h32, show i - 30 < 2 by omega]
    · simp [h30, h32, show i - 32 < 32 by omega, show 2 + (i - 32) = i - 30 by omega]

theorem toNat_extractLsb'_rest (x : Word) : (x.extractLsb' 2 30).toNat = x.toNat / 4 := by
  simp [Nat.shiftRight_eq_div_pow]
  omega

theorem toInt_doubleWord_mulStep (a : Word) (r : MulDiv) :
    (doubleWord (mulStep a r)).toInt =
      2 ^ 30 * (r.hi.toInt + boothMultiple (r.lo.getLsbD 1) (r.lo.getLsbD 0) r.db * a.toInt) +
        ((r.lo.toNat / 4 : Nat) : Int) := by
  rw [doubleWord_mulStep, BitVec.toInt_append, toInt_boothSum, toNat_extractLsb'_rest]
  rfl

theorem getLsbD_mulStep_lo (a : Word) (r : MulDiv) {i : Nat} (h : i < 30) :
    (mulStep a r).lo.getLsbD i = r.lo.getLsbD (i + 2) := by
  simp only [mulStep, BitVec.getLsbD_append, BitVec.getLsbD_extractLsb', h, if_true, decide_true,
    Bool.true_and, Nat.add_comm 2 i]

/-- The rest of the multiplier moves down by two bits. -/
theorem toNat_mulStep_lo_mod (a : Word) (r : MulDiv) {n : Nat} (hn : n ≤ 15) :
    (mulStep a r).lo.toNat % 4 ^ n = r.lo.toNat / 4 % 4 ^ n := by
  have hlow : (mulStep a r).lo.toNat % 2 ^ 30 = r.lo.toNat / 4 := by
    rw [← BitVec.toNat_setWidth, mulStep, BitVec.setWidth_append_eq_right, toNat_extractLsb'_rest]
  have hdvd : 4 ^ n ∣ 2 ^ 30 := pow_dvd_pow 4 hn
  rw [← hlow, Nat.mod_mod_of_dvd _ hdvd]

/-! ### The steps together -/

/-- With `n` steps to go: the double word, in which the low `2n` bits of Lo are the rest of the multiplier
and no part of the product, and beside it the product of that rest, with the carry Db, and `c`. -/
def pendingProduct (c : Word) (n : Nat) (r : MulDiv) : Int :=
  (doubleWord r).toInt - ((r.lo.toNat % 4 ^ n : Nat) : Int) +
    2 ^ 32 * (((r.lo.toNat % 4 ^ n : Nat) : Int) + (r.db.toNat : Int)) * c.toInt

theorem pendingProduct_mulStep (c : Word) (r : MulDiv) {n : Nat} (hn : n ≤ 15) :
    4 * pendingProduct c n (mulStep c r) = pendingProduct c (n + 1) r := by
  have hrest : ((r.lo.toNat % 4 ^ (n + 1) : Nat) : Int) =
      ((r.lo.toNat % 4 : Nat) : Int) + 4 * ((r.lo.toNat / 4 % 4 ^ n : Nat) : Int) := by
    rw [pow_succ', Nat.mod_mul]
    push_cast
    rfl
  have hlo : (r.lo.toNat : Int) =
      ((r.lo.toNat % 4 : Nat) : Int) + 4 * ((r.lo.toNat / 4 : Nat) : Int) := by
    omega
  have hdb : (mulStep c r).db = r.lo.getLsbD 1 := rfl
  rw [pendingProduct, pendingProduct, toNat_mulStep_lo_mod c r hn, toInt_doubleWord_mulStep,
    boothMultiple_eq_carry, hdb, hrest, toInt_doubleWord]
  linear_combination -hlo

/-- After `n` steps nothing of the multiplier is left but the carry. -/
theorem pendingProduct_iterate (c : Word) {n : Nat} (hn : n ≤ 16) (r : MulDiv) :
    4 ^ n * pendingProduct c 0 ((mulStep c)^[n] r) = pendingProduct c n r := by
  induction n generalizing r with
  | zero => simp
  | succ n ih =>
    rw [Function.iterate_succ_apply, pow_succ', mul_assoc, ih (by omega),
      pendingProduct_mulStep c r (by omega)]

/-- Db takes the bits of the multiplier in turn. -/
theorem db_iterate_mulStep (c : Word) {n : Nat} (hn : n ≤ 15) (r : MulDiv) :
    ((mulStep c)^[n + 1] r).db = r.lo.getLsbD (2 * n + 1) := by
  induction n generalizing r with
  | zero => rfl
  | succ n ih =>
    rw [Function.iterate_succ_apply, ih (by omega), getLsbD_mulStep_lo c r (by omega)]
    rfl

/-- `msetup` and fifteen steps are sixteen steps from a clear Db (R153). -/
theorem iterate_mulStep_mulSetup (c h m : Word) (db : Bool) :
    (mulStep c)^[15] (mulSetup c ⟨h, m, db⟩) = (mulStep c)^[16] ⟨h, m, false⟩ := rfl

theorem toInt_eq_sub_msb (x : Word) : x.toInt = (x.toNat : Int) - 2 ^ 32 * (x.msb.toNat : Int) := by
  rw [BitVec.toInt_eq_msb_cond]
  cases x.msb <;> simp

theorem db_sixteenSteps (c h m : Word) (db : Bool) :
    ((mulStep c)^[15] (mulSetup c ⟨h, m, db⟩)).db = m.msb := by
  rw [iterate_mulStep_mulSetup, db_iterate_mulStep c le_rfl, BitVec.msb_eq_getLsbD_last]

/-- The carry that is left is the multiplier's sign, which makes the product the signed one. -/
theorem toInt_doubleWord_sixteenSteps (c h m : Word) (db : Bool) :
    (doubleWord ((mulStep c)^[15] (mulSetup c ⟨h, m, db⟩))).toInt =
      m.toInt * c.toInt + h.toInt := by
  have hsteps := pendingProduct_iterate c le_rfl ⟨h, m, false⟩
  have hm : m.toNat % 4 ^ 16 = m.toNat := Nat.mod_eq_of_lt m.isLt
  rw [← iterate_mulStep_mulSetup c h m db, pendingProduct, pendingProduct, db_sixteenSteps,
    toInt_doubleWord ⟨h, m, false⟩, hm] at hsteps
  simp only [pow_zero, Nat.mod_one, Nat.cast_zero, Bool.toNat_false] at hsteps
  linarith [congrArg (· * c.toInt) (toInt_eq_sub_msb m)]

/-- Settles O24: the double word is the product, which fits it. -/
theorem sixteenStepsMultiplySigned : Obligations.SixteenStepsMultiplySigned := by
  intro m c h db
  refine ⟨?_, db_sixteenSteps c h m db⟩
  rw [← toInt_doubleWord_sixteenSteps c h m db]
  exact BitVec.ofInt_toInt.symm

/-! ### The unsigned product -/

/-- What Hi lacks of the unsigned product: the multiplicand for a multiplier with its sign bit set, which
`umend` adds, and the multiplier for a multiplicand with its sign bit set. -/
theorem sixteenSteps_eq_unsigned (c m : Word) (db : Bool) :
    let r := (mulStep c)^[15] (mulSetup c ⟨0, m, db⟩)
    2 ^ 32 * (r.hi.toInt + (m.msb.toNat : Int) * c.toInt + (c.msb.toNat : Int) * (m.toNat : Int)) +
      (r.lo.toNat : Int) = ((m.toNat * c.toNat : Nat) : Int) := by
  intro r
  have hr : 2 ^ 32 * r.hi.toInt + (r.lo.toNat : Int) = m.toInt * c.toInt + 0 :=
    (toInt_doubleWord r).symm.trans (toInt_doubleWord_sixteenSteps c 0 m db)
  push_cast
  linear_combination hr + c.toInt * toInt_eq_sub_msb m + (m.toNat : Int) * toInt_eq_sub_msb c

/-- The value of a double word determines its two words. -/
theorem low_and_high_of_eq {high : Int} {low : Word} {p : Nat}
    (h : 2 ^ 32 * high + (low.toNat : Int) = (p : Int)) :
    low.toNat = p % 2 ^ 32 ∧ high = ((p / 2 ^ 32 : Nat) : Int) := by
  have hlow := low.isLt
  omega

/-- `umend` adds the multiplicand as often as the multiplier has its sign bit set. -/
theorem mulUnsignedEnd_hi (a : Word) (r : MulDiv) :
    (mulUnsignedEnd a r).hi = r.hi + BitVec.ofNat 32 r.db.toNat * a := by
  rw [mulUnsignedEnd_eq]
  cases r.db <;> simp

/-- Settles O25: the two words of the unsigned product, of which Hi lacks the multiplier if the multiplicand
has its sign bit set. -/
theorem stepsAndEndMultiplyUnsigned : Obligations.StepsAndEndMultiplyUnsigned := by
  intro m c db r high
  obtain ⟨hlow, hhigh⟩ := low_and_high_of_eq (sixteenSteps_eq_unsigned c m db)
  have hlo : r.lo = m * c :=
    BitVec.eq_of_toNat_eq ((congrArg BitVec.toNat (mulUnsignedEnd_lo ..)).trans
      (hlow.trans (BitVec.toNat_mul ..).symm))
  have hhi : r.hi + BitVec.ofNat 32 c.msb.toNat * m = high := by
    rw [mulUnsignedEnd_hi, db_sixteenSteps]
    have hword := congrArg (BitVec.ofInt 32) hhigh
    simpa only [BitVec.ofInt_add, BitVec.ofInt_mul, BitVec.ofInt_toInt, BitVec.ofInt_natCast,
      BitVec.ofNat_toNat, BitVec.setWidth_eq] using hword
  have hmsb : c.toNat < 2 ^ 31 ↔ c.msb = false := by simp [BitVec.msb_eq_decide]
  refine ⟨hlo, ?_⟩
  simp only [hmsb]
  cases hc : c.msb with
  | false => simpa [hc] using hhi
  | true => exact eq_sub_of_add_eq (by simpa [hc] using hhi)

end Sys2Proof.Machine
end

section
/-! PROOFS. The divide steps together (41_alu_special.md R158): each step doubles the double word of the
remainder and Lo, and trades divisors for quotient bits. -/

namespace Sys2Proof.Machine

/-! ### One step -/

theorem toNat_append_eq_add {v w : Nat} (x : BitVec v) (y : BitVec w) :
    (x ++ y).toNat = 2 ^ w * x.toNat + y.toNat := by
  rw [BitVec.toNat_append, ← Nat.shiftLeft_add_eq_or_of_lt y.isLt, Nat.shiftLeft_eq, Nat.mul_comm]

/-- Hi shifted left with Lo, before the divisor is added or subtracted. -/
theorem shiftedHigh_eq_ofInt (hi lo : Word) :
    ((hi ++ lo : BitVec 64) <<< 1).extractLsb' 32 32 =
      BitVec.ofInt 32 (2 * hi.toInt + ((lo.toNat / 2 ^ 31 : Nat) : Int)) := by
  have hsign := toInt_eq_sub_msb hi
  have hlo := lo.isLt
  rw [← extractLsb'_append_highBit]
  apply BitVec.eq_of_toNat_eq
  rw [toNat_append_eq_add, BitVec.toNat_ofInt, BitVec.extractLsb'_toNat, BitVec.extractLsb'_toNat]
  simp only [Nat.shiftRight_eq_div_pow]
  omega

/-- What a divide step leaves in Hi (R155), as long as that fits Hi. -/
def nextHi (d : Word) (r : MulDiv) : Int :=
  2 * r.hi.toInt + ((r.lo.toNat / 2 ^ 31 : Nat) : Int) +
    if r.hi.toInt < 0 then d.toInt else -d.toInt

theorem toInt_divStep_hi {d : Word} {r : MulDiv} (hmin : -2 ^ 31 ≤ nextHi d r)
    (hmax : nextHi d r < 2 ^ 31) : (divStep d r).hi.toInt = nextHi d r := by
  have hhi : (divStep d r).hi = BitVec.ofInt 32 (nextHi d r) := by
    rw [divStep_hi, shiftedHigh_eq_ofInt, BitVec.msb_eq_toInt, nextHi, BitVec.ofInt_add _ (ite ..)]
    by_cases hneg : r.hi.toInt < 0
    · simp only [hneg, decide_true, if_true, BitVec.ofInt_toInt]
    · simp only [hneg, decide_false, Bool.false_eq_true, if_false, BitVec.ofInt_neg,
        BitVec.ofInt_toInt, BitVec.sub_eq_add_neg]
  rw [hhi, BitVec.toInt_ofInt_eq_self (by decide) hmin hmax]

/-- The quotient bit of a divide step: whether the new Hi is not negative (R155). -/
def quotientBit (d : Word) (r : MulDiv) : Nat := if (divStep d r).hi.toInt < 0 then 0 else 1

/-- Lo after a divide step: shifted left, with the quotient bit at its right. -/
theorem toNat_divStep_lo (d : Word) (r : MulDiv) :
    (divStep d r).lo.toNat = 2 * (r.lo.toNat % 2 ^ 31) + quotientBit d r := by
  have hbit : (divStep d r).lo =
      r.lo.extractLsb' 0 31 ++ BitVec.ofBool (!(divStep d r).hi.getLsbD 31) := rfl
  have hsign : (divStep d r).hi.getLsbD 31 = decide ((divStep d r).hi.toInt < 0) := by
    rw [← BitVec.msb_eq_toInt, BitVec.msb_eq_getLsbD_last]
  rw [hbit, toNat_append_eq_add, BitVec.extractLsb'_toNat, hsign, quotientBit]
  by_cases hneg : (divStep d r).hi.toInt < 0 <;> simp [hneg]

theorem quotientBit_lt_two (d : Word) (r : MulDiv) : quotientBit d r < 2 := by
  unfold quotientBit
  split <;> decide

/-- The quotient bits so far stand at the right of Lo. -/
theorem toNat_divStep_lo_mod (d : Word) (r : MulDiv) {n : Nat} (hn : n < 32) :
    (divStep d r).lo.toNat % 2 ^ (n + 1) = 2 * (r.lo.toNat % 2 ^ n) + quotientBit d r := by
  have hbit := quotientBit_lt_two d r
  have hdvd : 2 ^ n ∣ 2 ^ 31 := pow_dvd_pow 2 (by omega)
  rw [toNat_divStep_lo, pow_succ' 2 n, Nat.mod_mul, Nat.mul_add_mod, Nat.mod_eq_of_lt hbit,
    Nat.mul_add_div (by decide), Nat.div_eq_of_lt hbit, Nat.add_zero, Nat.mod_mod_of_dvd _ hdvd,
    Nat.add_comm]

/-! ### A positive divisor -/

/-- The remainder Hi stands for: a negative Hi is the remainder less the divisor. -/
def remainder (d : Word) (r : MulDiv) : Int :=
  if r.hi.toInt < 0 then r.hi.toInt + d.toInt else r.hi.toInt

/-- The remainder and Lo as one number. -/
def remainderAndLo (d : Word) (r : MulDiv) : Int := 2 ^ 32 * remainder d r + (r.lo.toNat : Int)

variable {d : Word}

theorem remainder_divStep {r : MulDiv} (hmin : 0 ≤ remainder d r) (hmax : remainder d r < d.toInt) :
    (0 ≤ remainder d (divStep d r) ∧ remainder d (divStep d r) < d.toInt) ∧
      2 * remainder d r + ((r.lo.toNat / 2 ^ 31 : Nat) : Int) =
        remainder d (divStep d r) + d.toInt * (quotientBit d r : Int) := by
  have hd := d.toInt_lt
  have hlo := r.lo.isLt
  have hhi : (divStep d r).hi.toInt = nextHi d r := by
    unfold remainder at hmin hmax
    apply toInt_divStep_hi <;>
    · unfold nextHi
      split_ifs at hmin hmax ⊢ <;> omega
  unfold remainder quotientBit at *
  rw [hhi]
  unfold nextHi
  split_ifs at hmin hmax ⊢ <;> push_cast <;> omega

/-- A step doubles the number, and takes the divisor off the remainder for each quotient bit that it puts
into Lo. -/
theorem remainderAndLo_divStep {r : MulDiv} {n : Nat} (hn : n < 32) (hmin : 0 ≤ remainder d r)
    (hmax : remainder d r < d.toInt) :
    remainderAndLo d (divStep d r) +
        (((divStep d r).lo.toNat % 2 ^ (n + 1) : Nat) : Int) * (2 ^ 32 * d.toInt - 1) =
      2 * (remainderAndLo d r + ((r.lo.toNat % 2 ^ n : Nat) : Int) * (2 ^ 32 * d.toInt - 1)) := by
  obtain ⟨-, hremainder⟩ := remainder_divStep hmin hmax
  have hlo : (r.lo.toNat : Int) =
      2 ^ 31 * ((r.lo.toNat / 2 ^ 31 : Nat) : Int) + ((r.lo.toNat % 2 ^ 31 : Nat) : Int) := by
    omega
  rw [remainderAndLo, remainderAndLo, toNat_divStep_lo_mod d r hn, toNat_divStep_lo]
  push_cast at hlo hremainder ⊢
  linear_combination -2 ^ 32 * hremainder - 2 * hlo

theorem remainderAndLo_iterate {r : MulDiv} {n : Nat} (hn : n ≤ 32) (hmin : 0 ≤ remainder d r)
    (hmax : remainder d r < d.toInt) :
    (0 ≤ remainder d ((divStep d)^[n] r) ∧ remainder d ((divStep d)^[n] r) < d.toInt) ∧
      remainderAndLo d ((divStep d)^[n] r) +
          ((((divStep d)^[n] r).lo.toNat % 2 ^ n : Nat) : Int) * (2 ^ 32 * d.toInt - 1) =
        2 ^ n * remainderAndLo d r := by
  induction n with
  | zero => simp [hmin, hmax, Nat.mod_one]
  | succ n ih =>
    obtain ⟨⟨hmin', hmax'⟩, hsum⟩ := ih (by omega)
    obtain ⟨hrange, -⟩ := remainder_divStep hmin' hmax'
    rw [Function.iterate_succ_apply', remainderAndLo_divStep hn hmin' hmax', hsum, pow_succ', mul_assoc]
    exact ⟨hrange, rfl⟩

/-- With Hi clear, thirty-two steps divide Lo. -/
theorem remainder_thirtyTwoSteps (hd : 0 < d.toInt) (n : Word) (db : Bool) :
    let r := (divStep d)^[32] ⟨0, n, db⟩
    r.lo.toNat = n.toNat / d.toNat ∧ remainder d r = ((n.toNat % d.toNat : Nat) : Int) := by
  intro r
  have hstart : remainder d ⟨0, n, db⟩ = 0 := rfl
  obtain ⟨⟨hmin, hmax⟩, hsum⟩ :=
    remainderAndLo_iterate (d := d) (r := ⟨0, n, db⟩) le_rfl hstart.ge (hstart.trans_lt hd)
  rw [Nat.mod_eq_of_lt (BitVec.isLt _), remainderAndLo, remainderAndLo, hstart] at hsum
  have hdivision : remainder d r + d.toInt * (r.lo.toNat : Int) = n.toNat := by
    linarith
  have hdn : d.toInt = d.toNat := by
    rw [toInt_eq_sub_msb, BitVec.msb_eq_toInt]
    simp [hd.le]
  rw [hdn] at hd hdivision hmax
  obtain ⟨hquotient, hremainder⟩ := (Int.ediv_emod_unique hd).2 ⟨hdivision, hmin, hmax⟩
  exact ⟨by exact_mod_cast hquotient.symm, by exact_mod_cast hremainder.symm⟩

theorem hi_eq_of_remainder {r : MulDiv} {k : Nat} (h : remainder d r = (k : Int)) :
    r.hi = if r.hi.msb then BitVec.ofNat 32 k - d else BitVec.ofNat 32 k := by
  have hword := congrArg (BitVec.ofInt 32) h
  rw [BitVec.ofInt_natCast, remainder] at hword
  rw [BitVec.msb_eq_toInt]
  by_cases hneg : r.hi.toInt < 0
  · simp only [hneg, if_true, BitVec.ofInt_add, BitVec.ofInt_toInt] at hword
    simpa [hneg] using eq_sub_of_add_eq hword
  · simpa [hneg] using hword

/-! ### Divisor zero -/

/-- With divisor 0 and room in Hi a step shifts a one into the double word. -/
theorem toInt_doubleWord_divStep_zero {r : MulDiv} (hmin : 0 ≤ (doubleWord r).toInt)
    (hmax : (doubleWord r).toInt < 2 ^ 62) :
    (doubleWord (divStep 0 r)).toInt + 1 = 2 * ((doubleWord r).toInt + 1) := by
  rw [toInt_doubleWord] at hmin hmax
  have hlo := r.lo.isLt
  have hhi : (divStep 0 r).hi.toInt = 2 * r.hi.toInt + ((r.lo.toNat / 2 ^ 31 : Nat) : Int) := by
    have hnext : nextHi 0 r = 2 * r.hi.toInt + ((r.lo.toNat / 2 ^ 31 : Nat) : Int) := by
      simp [nextHi]
    rw [toInt_divStep_hi, hnext] <;> omega
  have hbit : quotientBit 0 r = 1 := by
    rw [quotientBit, hhi, if_neg (by omega)]
  rw [toInt_doubleWord, toInt_doubleWord, toNat_divStep_lo, hbit, hhi]
  omega

theorem toInt_doubleWord_iterate_divStep_zero {r : MulDiv} {n : Nat}
    (hmin : 0 ≤ (doubleWord r).toInt) (hmax : 2 ^ n * ((doubleWord r).toInt + 1) ≤ 2 ^ 63) :
    (doubleWord ((divStep 0)^[n] r)).toInt + 1 = 2 ^ n * ((doubleWord r).toInt + 1) := by
  induction n generalizing r with
  | zero => simp
  | succ n ih =>
    rw [pow_succ, mul_assoc] at hmax ⊢
    have hone : 2 * ((doubleWord r).toInt + 1) ≤ 2 ^ n * (2 * ((doubleWord r).toInt + 1)) :=
      le_mul_of_one_le_left (by omega) (one_le_pow₀ (by decide))
    have hstep := toInt_doubleWord_divStep_zero hmin (by omega)
    rw [← hstep] at hmax ⊢
    rw [Function.iterate_succ_apply, ih (by omega) hmax]

/-- Settles O26: the remainder and the quotient of a positive divisor; with divisor 0 thirty-two ones shift
the dividend up into Hi. -/
theorem thirtyTwoStepsDivide : Obligations.ThirtyTwoStepsDivide := by
  intro n d db hn r
  constructor
  · rintro ⟨hpos, hlt⟩
    have hd : 0 < d.toInt := by
      rw [BitVec.toInt_eq_toNat_of_lt (by omega)]
      omega
    obtain ⟨hquotient, hremainder⟩ := remainder_thirtyTwoSteps hd n db
    exact ⟨hquotient, hi_eq_of_remainder hremainder⟩
  · rintro rfl
    have hstart : (doubleWord ⟨0, n, db⟩).toInt = n.toNat := by
      simp [toInt_doubleWord]
    have hsteps := toInt_doubleWord_iterate_divStep_zero (r := ⟨0, n, db⟩) (n := 32) (by omega)
      (by omega)
    rw [hstart, toInt_doubleWord] at hsteps
    have hlo := r.lo.isLt
    have hwords : r.lo.toNat = 2 ^ 32 - 1 ∧ r.hi.toInt = n.toNat := by
      change 2 ^ 32 * r.hi.toInt + (r.lo.toNat : Int) + 1 = _ at hsteps
      omega
    obtain ⟨hones, hdividend⟩ := hwords
    refine ⟨BitVec.eq_of_toNat_eq hones, BitVec.eq_of_toInt_eq ?_⟩
    rw [hdividend, BitVec.toInt_eq_toNat_of_lt (by omega)]

end Sys2Proof.Machine
end

section
/-! PROOFS. The fourteen conditions and their codes (42_control.md R170). -/

namespace Sys2Proof

/-- The condition whose code differs in bit 0 (R170). -/
def Cond.complement : Cond → Cond
  | .lt => .ge
  | .ge => .lt
  | .le => .gt
  | .gt => .le
  | .lo => .hs
  | .hs => .lo
  | .ls => .hi
  | .hi => .ls
  | .zand => .nzand
  | .nzand => .zand
  | .zor => .nzor
  | .nzor => .zor
  | .eq => .ne
  | .ne => .eq

theorem decodeCond_flipped_bit0 (c : Cond) :
    decodeCond (encodeCond c ^^^ 1) = .listed c.complement := by
  cases c <;> rfl

/-- The codes tell the conditions apart, so only the complement has the code that differs in bit 0. -/
theorem eq_complement_of_codes {c d : Cond} (h : encodeCond c ^^^ encodeCond d = 1) :
    d = c.complement := by
  have hcode : encodeCond c ^^^ 1 = encodeCond d := by
    rw [← h, ← BitVec.xor_assoc, BitVec.xor_self, BitVec.zero_xor]
  have hd := decodeCond_flipped_bit0 c
  rw [hcode, decodeCond_encodeCond] at hd
  exact Coded.listed.inj hd

/-- The reserved condition codes are the two that `decodeCond_reads` lists. -/
theorem decodeCond_eq_reserved_iff (code : BitVec 4) :
    decodeCond code = .reserved ↔ 14 ≤ code.toNat := by
  have hcodes : code ∈ [14#4, 15] ↔ 14 ≤ code.toNat := by
    revert code
    decide
  rw [← hcodes]
  have h := decodeCond_reads code
  generalize decodeCond code = x at h
  cases h with
  | listed _ hr _ => exact iff_of_false nofun hr
  | illegal hi => exact hi.elim
  | reserved _ hr => exact iff_of_true rfl hr

end Sys2Proof

namespace Sys2Proof.Machine

theorem test_complement (c : Cond) (a b : Word) : test c.complement a b = !test c a b := by
  cases c with
  | lt | ge | le | gt | lo | hs | ls | hi => simp [test, Cond.complement, ← decide_not]
  | zand | zor | eq => rfl
  | nzand | nzor | ne => exact (Bool.not_not _).symm

/-- A literal first operand is below 16, so its sign bit is clear. -/
theorem source_literal (s : State) (v : Reg) :
    (source s true v).toInt = v.toNat ∧ (source s true v).toNat = v.toNat := by
  have hnat : (source s true v).toNat = v.toNat :=
    BitVec.toNat_setWidth_of_le (b := v) (show 4 ≤ 32 by decide)
  have hlt := v.isLt
  refine ⟨?_, hnat⟩
  rw [BitVec.toInt_eq_toNat_of_lt (by omega), hnat]

/-- Settles O29: each test is its comparison; the other clauses are the lemmas above. -/
theorem conditionTable : Obligations.ConditionTable := by
  refine ⟨fun a b => ?_, fun c d a b h => ?_, source_literal, rfl, decodeCond_eq_reserved_iff⟩
  · exact ⟨decide_eq_true_iff, decide_eq_true_iff, decide_eq_true_iff, decide_eq_true_iff,
      decide_eq_true_iff, decide_eq_true_iff, decide_eq_true_iff, decide_eq_true_iff,
      beq_iff_eq, bne_iff_ne, beq_iff_eq, bne_iff_ne, beq_iff_eq, bne_iff_ne⟩
  · rw [eq_complement_of_codes h, test_complement, Bool.not_not]

end Sys2Proof.Machine
end

section
/-! PROOFS. What a sequence of state operations changes beside the sequencing state, one rule for each
operation of the branches and jumps (10_state.md R23, R24, R34, R38). -/

namespace Sys2Proof.Machine

variable {c : Changes} {s t : State}

theorem OnlyChanges.setDisp (h : OnlyChanges c s t) (v : Word) :
    OnlyChanges { c with disp := true } s (setDisp t v) :=
  { h with disp := nofun }

theorem OnlyChanges.setMar (h : OnlyChanges c s t) (v : Word) :
    OnlyChanges { c with mar := true } s (setMar t v) :=
  { h with mar := nofun }

theorem OnlyChanges.setPcp1 (h : OnlyChanges c s t) (v : Word) :
    OnlyChanges { c with pcp1 := true } s (setPcp1 t v) :=
  { h with pcp1 := nofun }

theorem OnlyChanges.jumpD1 (h : OnlyChanges c s t) (v : Word) : OnlyChanges c s (jumpD1 t v) :=
  { h with }

theorem OnlyChanges.jumpD2 (h : OnlyChanges c s t) (v : Word) : OnlyChanges c s (jumpD2 t v) :=
  { h with }

theorem onlyChanges_advance (s : State) : OnlyChanges {} s (advance s) := (plain_advance s).1

end Sys2Proof.Machine
end

section
/-! PROOFS. The branches and jumps with one delay slot (42_control.md R173 to R175, R178). -/

namespace Sys2Proof.Machine

variable {s : State}

/-! ### Conditional branches -/

theorem condition_ofCond (c : Cond) (h : CondHost) : (Instr.ofCond c h).condition = some (c, h) := by
  cases c <;> rfl

/-- What a conditional branch leaves of a state: the destination in PC(+1), and the jump to it if the
branch is taken. -/
def afterBranch (taken : Bool) (offset : BitVec 12) (s : State) : State :=
  if taken = true then jumpD1 (afterDestination offset s) (s.pc1 + sext offset)
  else afterDestination offset s

/-- A conditional branch under either spelling, with no check to stop it. -/
theorem exec_branch {i : Instr} {c : Cond} {imm : Bool} {src2 src1 : Reg} {offset : BitVec 12}
    (hi : i.condition = some (c, .branch imm src2 src1 offset))
    (hload : NotLoading ([src2] ++ sourceRegs imm src1) s) (hjump : s.jd2Prev = false) :
    exec i s = .next (afterBranch (test c (source s imm src1) (reg s src2)) offset s) := by
  rw [exec_of_condition hi]
  exact branchOn_eq_next.2 ⟨loadPending_eq_false.2 hload, hjump, rfl⟩

theorem onlyChanges_afterDestination (offset : BitVec 12) (s : State) :
    OnlyChanges { disp := true, pcp1 := true } s (afterDestination offset s) :=
  ((onlyChanges_advance s).setDisp _).setPcp1 _

/-- Settles O30: PC(+1) is formed before the test, and the two answers of the test are the two ways
to go on. -/
theorem conditionalBranches : Obligations.ConditionalBranches := by
  intro c imm src2 src1 offset s i hi hload hjump
  have hcond : i.condition = some (c, .branch imm src2 src1 offset) := by
    rcases hi with rfl | rfl
    · rfl
    · exact condition_ofCond ..
  have hframe := onlyChanges_afterDestination offset s
  refine ⟨_, exec_branch hcond hload hjump, ?_⟩
  cases test c (source s imm src1) (reg s src2) with
  | false => exact ⟨⟨rfl, rfl, rfl, rfl, rfl, rfl⟩, rfl, rfl, hframe, ⟨rfl, rfl, rfl⟩⟩
  | true => exact ⟨⟨rfl, rfl, rfl, rfl, rfl, rfl⟩, rfl, rfl, hframe.jumpD1 _, ⟨rfl, rfl, rfl⟩⟩

/-! ### Unconditional jumps -/

/-- What a direct jump leaves of a state: its Disp, and the jump to `v`. -/
def afterDirectJump (v disp : Word) (s : State) : State := jumpD1 (setDisp (advance s) disp) v

/-- The checks of a direct jump: the register it uses, and PC(current) in OD. -/
theorem issue_directJump {w : Word} {rs : List Reg} (f : State → State) (hload : NotLoading rs s)
    (hjump : s.jd2Prev = false) :
    issue { word := w, regs := rs, pcInOd := true } s (fun t => .next (f t)) = .next (f (advance s)) :=
  issue_eq_next.2 ⟨nofun, loadPending_eq_false.2 hload, fun _ => hjump, rfl, rfl⟩

theorem execBucnd_eq_next (offset : BitVec 24) (hjump : s.jd2Prev = false) :
    execBucnd offset s = .next (afterDirectJump (s.pc1 + sext offset) (sext offset) s) :=
  issue_directJump _ nofun hjump

theorem execJbase_eq_next {base : Reg} (offset : BitVec 20) (hload : NotLoading [base] s)
    (hjump : s.jd2Prev = false) :
    execJbase base offset s = .next (afterDirectJump (reg s base + sext offset) (sext offset) s) :=
  issue_directJump _ hload hjump

theorem execJdrct_eq_next (address : BitVec 24) (hjump : s.jd2Prev = false) :
    execJdrct address s = .next (afterDirectJump (sext address) (sext address) s) :=
  issue_directJump _ nofun hjump

/-- An instruction whose meaning is a direct jump makes it, and changes Disp only. -/
theorem directJump_of_exec {i : Instr} {v disp : Word}
    (h : exec i s = .next (afterDirectJump v disp s)) :
    ∃ t, exec i s = .next t ∧ JumpsAfterOne v s t ∧ t.disp = disp ∧
      OnlyChanges { disp := true } s t ∧ Notes none false false t :=
  ⟨_, h, ⟨rfl, rfl, rfl, rfl, rfl, rfl⟩, rfl, ((onlyChanges_advance s).setDisp _).jumpD1 _,
    ⟨rfl, rfl, rfl⟩⟩

/-- Settles O31: the three destinations of a direct jump. -/
theorem directJumps : Obligations.DirectJumps := fun _ hjump =>
  ⟨fun offset => directJump_of_exec (execBucnd_eq_next offset hjump),
    fun _ offset hload => directJump_of_exec (execJbase_eq_next offset hload hjump),
    fun address => directJump_of_exec (execJdrct_eq_next address hjump)⟩

end Sys2Proof.Machine
end

section
/-! PROOFS. The jumps through memory, with two delay slots (42_control.md R176, R177, R179; decision
D8). -/

namespace Sys2Proof.Machine

variable {c : Changes} {s u : State} {a : Word}

/-! ### A piece and the address formed before it -/

/-- A piece neither reads nor writes Disp. -/
theorem runAlu2_setDisp (p : Alu2) (t : State) (v : Word) :
    runAlu2 p (setDisp t v) = setDisp (runAlu2 p t) v := by
  cases p with
  | toSpecial sel => cases sel <;> rfl
  | fromSpecial sel => cases sel <;> rfl
  | _ => rfl

/-- A piece neither reads nor writes MAR. -/
theorem runAlu2_setMar (p : Alu2) (t : State) (v : Word) :
    runAlu2 p (setMar t v) = setMar (runAlu2 p t) v := by
  cases p with
  | toSpecial sel => cases sel <;> rfl
  | fromSpecial sel => cases sel <;> rfl
  | _ => rfl

theorem alone_keeps (p : Alu2) (s : State) : PieceKeeps (advance s) (alone p s) :=
  runAlu2_keeps ..

/-- Of the sequencing, a piece may change what comes after the next instruction. -/
theorem goes_alone (p : Alu2) (s : State) : Goes (alone p s).pc1 (alone p s).pc2 s (alone p s) :=
  have k := alone_keeps p s
  ⟨k.pc0, rfl, rfl, k.pcm, k.suCur, k.suNxt⟩

theorem onlyChanges_alone (p : Alu2) (s : State) : OnlyChanges (pieceChanges p) s (alone p s) :=
  (onlyChanges_runAlu2 p (advance s)).of_advance

theorem notes_alone (p : Alu2) (s : State) : Notes none false false (alone p s) :=
  have k := alone_keeps p s
  ⟨k.ldPrev, k.jd2Prev, k.ldsPrev⟩

theorem alone_keepsMemory (p : Alu2) (s : State) : KeepsMemory s (alone p s) :=
  (advance_keepsMemory s).trans (runAlu2_keepsMemory ..)

/-- The piece neither reads nor writes the address formed before it, which is from the old base
(R177). -/
theorem runAlu2_formAddress_based {n : Nat} (p : Alu2) (base : Reg) (offset : BitVec n) (s : State) :
    runAlu2 p (formAddress (advance s) (.based base offset)) =
      setMar (setDisp (alone p s) (sext offset)) (reg s base + sext offset) := by
  change runAlu2 p (setMar (setDisp (advance s) _) _) = _
  rw [runAlu2_setMar, runAlu2_setDisp]
  rfl

/-! ### The jump -/

/-- What a jump through memory leaves of a state `u`: the address `a` with its Disp, and the jump to the
word `v`. -/
def afterIndirectJump (a disp v : Word) (u : State) : State := jumpD2 (setMar (setDisp u disp) a) v

/-- From a state `u` whose memory is the old one, the jump is to the old word at the address formed. -/
theorem jumpThroughMar_formed {disp : Word} (k : KeepsMemory s u) (hmem : memAddr s a = true) :
    jumpThroughMar (setMar (setDisp u disp) a) = .next (afterIndirectJump a disp (s.mem.word a) u) := by
  refine jumpThroughMar_eq_next.2 ⟨(k.memAddr_eq a).trans hmem, ?_⟩
  exact congrArg (fun m => afterIndirectJump a disp (Memory.word m a) u) k.mem

theorem execJind_eq_next {address : BitVec 24} (hmem : memAddr s (sext address) = true) :
    execJind address s =
      .next (afterIndirectJump (sext address) (sext address) (s.mem.word (sext address)) (advance s)) :=
  issue_eq_next.2 ⟨nofun, loadPending_eq_false.2 nofun, nofun, rfl,
    jumpThroughMar_formed (advance_keepsMemory s) hmem⟩

theorem execJbind_eq_next {base : Reg} {offset : BitVec 20} (hload : NotLoading [base] s)
    (hmem : memAddr s (reg s base + sext offset) = true) :
    execJbind base offset s =
      .next (afterIndirectJump (reg s base + sext offset) (sext offset)
        (s.mem.word (reg s base + sext offset)) (advance s)) :=
  issue_eq_next.2 ⟨nofun, loadPending_eq_false.2 hload, nofun, rfl,
    jumpThroughMar_formed (advance_keepsMemory s) hmem⟩

theorem execJibalu_eq_next {base : Reg} {p : Alu2} {offset : BitVec 8}
    (hpriv : alu2Privileged p = true → supervisor s = true)
    (hload : NotLoading ([base] ++ alu2Regs p) s)
    (hmem : memAddr s (reg s base + sext offset) = true) :
    execJibalu base p offset s =
      .next (afterIndirectJump (reg s base + sext offset) (sext offset)
        (s.mem.word (reg s base + sext offset)) (alone p s)) := by
  refine issue_eq_next.2 ⟨hpriv, loadPending_eq_false.2 hload, nofun, rfl, ?_⟩
  rw [runAlu2_formAddress_based]
  exact jumpThroughMar_formed (alone_keepsMemory p s) hmem

theorem goes_afterIndirectJump {pc1 pc2 disp v : Word} (h : Goes pc1 pc2 s u) :
    Goes pc1 v s (afterIndirectJump a disp v u) :=
  { h with pc2 := rfl }

theorem onlyChanges_afterIndirectJump {disp v : Word} (h : OnlyChanges c s u) :
    OnlyChanges { c with mar := true, disp := true } s (afterIndirectJump a disp v u) :=
  ((h.setDisp disp).setMar a).jumpD2 v

/-- An indirect jump is noted for the instruction after it. -/
theorem notes_afterIndirectJump {disp v : Word} (h : Notes none false false u) :
    Notes none true false (afterIndirectJump a disp v u) :=
  { h with jd2Prev := rfl }

/-- An instruction whose meaning is a jump through memory, without a piece, changes MAR and Disp only. -/
theorem indirectJump_of_exec {i : Instr} {disp v : Word}
    (h : exec i s = .next (afterIndirectJump a disp v (advance s))) :
    ∃ t, exec i s = .next t ∧ JumpsAfterTwo v s t ∧ t.mar = a ∧ t.disp = disp ∧
      OnlyChanges { mar := true, disp := true } s t ∧ Notes none true false t := by
  obtain ⟨hframe, hgoes, hnotes⟩ := plain_advance s
  exact ⟨_, h, goes_afterIndirectJump hgoes, rfl, rfl, onlyChanges_afterIndirectJump hframe,
    notes_afterIndirectJump hnotes⟩

/-- Settles O32: the two addresses of a jump through memory without a piece. -/
theorem indirectJumps : Obligations.IndirectJumps :=
  ⟨fun _ _ hmem => indirectJump_of_exec (execJind_eq_next hmem),
    fun _ _ _ hload hmem => indirectJump_of_exec (execJbind_eq_next hload hmem)⟩

/-- Settles O33: the jump from the state the piece leaves. -/
theorem indirectJumpWithPiece : Obligations.IndirectJumpWithPiece := by
  intro base p offset s a hpriv hload hmem
  exact ⟨_, execJibalu_eq_next hpriv hload hmem, goes_afterIndirectJump (goes_alone p s),
    ⟨fun _ _ => rfl, rfl, rfl, rfl, rfl, rfl⟩, rfl, rfl,
    onlyChanges_afterIndirectJump (onlyChanges_alone p s), notes_afterIndirectJump (notes_alone p s)⟩

end Sys2Proof.Machine
end

section
/-! PROOFS. Adjacent fields of a word, for a layout given as its fields side by side (43_load.md R206). -/

namespace Sys2Proof

/-- Two fields side by side, in place, are the two fields each in its place. -/
theorem place_append {n m : Nat} (x : BitVec n) (y : BitVec m) (lo : Nat) :
    place (x ++ y) lo = place x (lo + m) ||| place y lo := by
  ext i hi
  simp only [place, BitVec.getElem_or, BitVec.getElem_shiftLeft, BitVec.getElem_setWidth,
    BitVec.getLsbD_append]
  by_cases hlo : i < lo
  · simp [hlo, show i < lo + m by omega]
  · by_cases hm : i < lo + m
    · simp [hlo, hm, show i - lo < m by omega]
    · simp [hlo, hm, show ¬ i - lo < m by omega, show i - lo - m = i - (lo + m) by omega,
        BitVec.getLsbD_of_ge y (i - lo) (by omega)]

theorem place_zero (w : Word) : place w 0 = w := by
  simp [place]

end Sys2Proof
end

section
/-! PROOFS. The address of a memory instruction beside its ALU2 piece (43_load.md R200; 10_state.md R23,
R24): the address is from the old registers, and the piece neither reads nor writes MAR and Disp. -/

namespace Sys2Proof.Machine

variable {c : Changes} {s t u : State} {a : Address} {p : Alu2}

/-! ### Frames -/

theorem OnlyChanges.setReg (h : OnlyChanges c s t) (r : Reg) (v : Word) :
    OnlyChanges { c with regs := r :: c.regs } s (setReg t r v) :=
  { h with
    regs := fun _ hq =>
      (reg_setReg_other t v (List.ne_of_not_mem_cons hq)).trans
        (h.regs _ (List.not_mem_of_not_mem_cons hq)) }

theorem OnlyChanges.loadReg (h : OnlyChanges c s t) (dst : Reg) (v : Word) :
    OnlyChanges { c with regs := dst :: c.regs } s (loadReg t dst v) :=
  { h.setReg dst v with }

theorem OnlyChanges.loadSu (h : OnlyChanges c s t) (v : Word) :
    OnlyChanges { c with suReg := true } s (loadSu t v) :=
  { h with suReg := nofun }

/-- Of memory, a word write changes the four bytes of its word. -/
theorem OnlyChanges.setWord (h : OnlyChanges c s t) (hm : s.mem.wf = true) (w v : Word) :
    OnlyChanges { c with stored := some w } s (setMem t (s.mem.setWord w v)) :=
  { h with
    bytes := fun q hq => (byte_setWord hm w v q).trans (if_neg (hq w rfl)) }

/-- The registers a piece may change are its destination, if it has one. -/
theorem pieceChanges_regs (p : Alu2) : (pieceChanges p).regs = (alu2Dst p).toList := by
  cases p with
  | toSpecial sel => cases sel <;> rfl
  | _ => rfl

theorem Goes.of_sameSequencing {pc1 pc2 : Word} (h : Goes pc1 pc2 s t) (k : SameSequencing t u) :
    Goes pc1 pc2 s u :=
  ⟨k.pc0.trans h.pc0, k.pc1.trans h.pc1, k.pc2.trans h.pc2, k.pcm.trans h.pcm,
    k.suCur.trans h.suCur, k.suNxt.trans h.suNxt⟩

/-! ### The address -/

/-- The state `u` with the address that a form gives in the state `s`, in MAR and, where the form has one,
in Disp. -/
def putAddress (s : State) (a : Address) (u : State) : State :=
  match addressDisp a with
  | some d => setMar (setDisp u d) (addressOf s a)
  | none => setMar u (addressOf s a)

theorem formAddress_advance (s : State) (a : Address) :
    formAddress (advance s) a = putAddress s a (advance s) := by
  cases a <;> rfl

@[simp] theorem addressOf_advance (s : State) (a : Address) :
    addressOf (advance s) a = addressOf s a := by
  cases a <;> rfl

/-- The piece after the address is the piece before it. -/
theorem runAlu2_putAddress (p : Alu2) (s : State) (a : Address) (u : State) :
    runAlu2 p (putAddress s a u) = putAddress s a (runAlu2 p u) := by
  unfold putAddress
  split
  · rw [runAlu2_setMar, runAlu2_setDisp]
  · rw [runAlu2_setMar]

theorem runAlu2_formAddress (p : Alu2) (s : State) (a : Address) :
    runAlu2 p (formAddress (advance s) a) = putAddress s a (alone p s) := by
  rw [formAddress_advance, runAlu2_putAddress, alone]

@[simp] theorem putAddress_mar (s : State) (a : Address) (u : State) :
    (putAddress s a u).mar = addressOf s a := by
  cases a <;> rfl

theorem putAddress_disp {d : Word} (u : State) (h : addressDisp a = some d) :
    (putAddress s a u).disp = d := by
  rw [putAddress, h]
  rfl

theorem sameSequencing_putAddress (s : State) (a : Address) (u : State) :
    SameSequencing u (putAddress s a u) := by
  cases a <;> exact ⟨rfl, rfl, rfl, rfl, rfl, rfl⟩

theorem OnlyChanges.putAddress (h : OnlyChanges c s u) (a : Address) :
    OnlyChanges { c with mar := true, disp := (addressDisp a).isSome || c.disp } s
      (putAddress s a u) := by
  cases a with
  | based | direct => exact (h.setDisp _).setMar _
  | indexed | shifted => exact h.setMar _

theorem notes_putAddress {loaded : Option Reg} {indirect lds : Bool}
    (h : Notes loaded indirect lds u) (s : State) (a : Address) :
    Notes loaded indirect lds (putAddress s a u) := by
  cases a <;> exact { h with }

theorem doesPiece_putAddress (p : Alu2) (s : State) (a : Address) :
    DoesPiece p [] s (putAddress s a (alone p s)) := by
  cases a <;> exact ⟨fun _ _ => rfl, rfl, rfl, rfl, rfl, rfl⟩

/-- The arithmetic right shift of an address divides by a power of two, rounding toward minus infinity
(R204). -/
theorem eq_sshiftRight_of_toInt {w b : Word} {n : Nat} (h : w.toInt = b.toInt / 2 ^ n) :
    w = b.sshiftRight n := by
  apply BitVec.eq_of_toInt_eq
  rw [h, BitVec.toInt_sshiftRight, Int.shiftRight_eq_div_pow]
  norm_cast

end Sys2Proof.Machine
end

section
/-! PROOFS. The loads (43_load.md R200 to R206). -/

namespace Sys2Proof.Machine

variable {c : Changes} {s u : State} {dst : Reg} {a : Address} {p : Alu2} {w : Word}

/-! ### What a load leaves -/

/-- What a load leaves of a state `u`, the old state `s` advanced and perhaps its ALU2 piece done: the
address from `s`, and last the word of `s` at that address in the destination, noted. -/
def afterLoad (dst : Reg) (a : Address) (s u : State) : State :=
  loadReg (putAddress s a u) dst (s.mem.word (addressOf s a))

theorem loadPlain_next (hload : NotLoading (dst :: addressRegs a) s)
    (hmem : memAddr s (addressOf s a) = true) :
    loadPlain w dst a s = .next (afterLoad dst a s (advance s)) := by
  rw [loadPlain_eq_next, loadPending_eq_false, formAddress_advance, addressOf_advance]
  exact ⟨hload, hmem, rfl⟩

theorem loadWithAlu2_next (hpriv : alu2Privileged p = true → supervisor s = true)
    (hload : NotLoading (dst :: addressRegs a ++ alu2Regs p) s)
    (hmem : memAddr s (addressOf s a) = true) :
    loadWithAlu2 w dst a p s = .next (afterLoad dst a s (alone p s)) := by
  rw [loadWithAlu2_eq_next, loadPending_eq_false, runAlu2_formAddress, addressOf_advance]
  exact ⟨hpriv, hload, hmem, rfl⟩

theorem sameSequencing_afterLoad (dst : Reg) (a : Address) (s u : State) :
    SameSequencing u (afterLoad dst a s u) :=
  { sameSequencing_putAddress s a u with }

theorem notes_afterLoad (h : Notes none false false u) :
    Notes (some dst) false false (afterLoad dst a s u) :=
  { notes_putAddress h s a with ldPrev := rfl }

theorem onlyChanges_afterLoad (h : OnlyChanges c s u) :
    OnlyChanges { c with
      regs := dst :: c.regs, mar := true, disp := (addressDisp a).isSome || c.disp }
      s (afterLoad dst a s u) :=
  (h.putAddress a).loadReg dst _

/-- Outside the loaded register, the piece did what it does alone. -/
theorem doesPiece_afterLoad (p : Alu2) (dst : Reg) (a : Address) (s : State) :
    DoesPiece p [dst] s (afterLoad dst a s (alone p s)) :=
  have h := doesPiece_putAddress p s a
  { h with
    regs := fun r hr => (reg_loadReg_other _ _ (List.ne_of_not_mem_cons hr)).trans (h.regs r nofun) }

theorem onlyChanges_afterLoad_alone (p : Alu2) (dst : Reg) (a : Address) (s : State) :
    OnlyChanges { pieceChanges p with
      regs := dst :: (alu2Dst p).toList, mar := true,
      disp := (addressDisp a).isSome || (pieceChanges p).disp }
      s (afterLoad dst a s (alone p s)) :=
  pieceChanges_regs p ▸ onlyChanges_afterLoad (onlyChanges_alone p s)

/-! ### The statements -/

/-- An instruction whose meaning is a load without a piece, from a form with a Disp. -/
theorem plainLoad_of_exec {i : Instr} {d : Word} (hdisp : addressDisp a = some d)
    (h : exec i s = .next (afterLoad dst a s (advance s))) :
    ∃ t, exec i s = .next t ∧ reg t dst = s.mem.word (addressOf s a) ∧
      t.mar = addressOf s a ∧ t.disp = d ∧
      OnlyChanges { regs := [dst], mar := true, disp := true } s t ∧ Continues s t ∧
      Notes (some dst) false false t := by
  obtain ⟨hframe, hgoes, hnotes⟩ := plain_advance s
  have hchanges := onlyChanges_afterLoad (dst := dst) (a := a) hframe
  rw [hdisp] at hchanges
  exact ⟨_, h, reg_loadReg_same .., putAddress_mar .., putAddress_disp _ hdisp, hchanges,
    hgoes.of_sameSequencing (sameSequencing_afterLoad ..), notes_afterLoad hnotes⟩

/-- Settles O35: the two addresses of a load without a piece. -/
theorem plainLoads : Obligations.PlainLoads := by
  constructor
  · intro dst base offset s a hload hmem
    exact plainLoad_of_exec (a := .based base offset) rfl (loadPlain_next hload hmem)
  · intro dst address s a hload hmem
    exact plainLoad_of_exec (a := .direct address) rfl (loadPlain_next hload hmem)

/-- Settles O36: the load from the state the piece leaves, under each of the three forms of the address. -/
theorem loadsWithPiece : Obligations.LoadsWithPiece := by
  intro dst base p s hpriv hload
  have hnotes : ∀ a, Notes (some dst) false false (afterLoad dst a s (alone p s)) :=
    fun _ => notes_afterLoad (notes_alone p s)
  refine ⟨?based, ?indexed, ?shifted⟩
  case based =>
    intro offset a hmem
    exact ⟨_, loadWithAlu2_next hpriv hload hmem, reg_loadReg_same .., rfl, rfl,
      doesPiece_afterLoad .., onlyChanges_afterLoad_alone p dst (.based base offset) s,
      sameSequencing_afterLoad .., hnotes _⟩
  case indexed =>
    intro index a hindex hmem
    have hloadAll : NotLoading (dst :: addressRegs (.indexed base index) ++ alu2Regs p) s := by
      intro r hr
      have hr' : r ∈ [index] ∨ r ∈ [dst, base] ++ alu2Regs p := by
        simp only [addressRegs, List.mem_append, List.mem_cons] at hr ⊢
        tauto
      exact hr'.elim (hindex r) (hload r)
    exact ⟨_, loadWithAlu2_next hpriv hloadAll hmem, reg_loadReg_same .., rfl,
      doesPiece_afterLoad .., onlyChanges_afterLoad_alone p dst (.indexed base index) s,
      sameSequencing_afterLoad .., hnotes _⟩
  case shifted =>
    intro shift a ha hmem
    obtain rfl := eq_sshiftRight_of_toInt ha
    exact ⟨_, loadWithAlu2_next (a := .shifted base shift) hpriv hload hmem, reg_loadReg_same .., rfl,
      doesPiece_afterLoad .., onlyChanges_afterLoad_alone p dst (.shifted base shift) s,
      sameSequencing_afterLoad .., hnotes _⟩

/-- LDI's word is its three fields side by side (R206). -/
theorem encode_ldi (dst : Reg) (data : BitVec 24) :
    encode (.ldi dst data) = (0xC#4 ++ dst ++ data : BitVec 32) := by
  calc encode (.ldi dst data)
      = place 0xC#4 28 ||| place dst 24 ||| place data 0 := rfl
    _ = place (0xC#4 ++ dst ++ data : BitVec 32) 0 := by rw [place_append, place_append]
    _ = 0xC#4 ++ dst ++ data := place_zero _

/-- What LDI leaves of a state: no address is formed, and no load is noted (R206). -/
theorem execLdi_next {data : BitVec 24} (hload : NotLoading [dst] s) :
    execLdi dst data s = .next (setReg (setDisp (advance s) (sext data)) dst (sext data)) :=
  issue_eq_next.2 ⟨nofun, loadPending_eq_false.2 hload, nofun, rfl, rfl⟩

/-- Settles O37: the word, and the register and Disp that LDI writes. -/
theorem loadImmediate : Obligations.LoadImmediate := by
  intro dst data s
  refine ⟨encode_ldi dst data, fun hload => ?_⟩
  obtain ⟨hframe, hgoes, hnotes⟩ := plain_advance s
  exact ⟨_, execLdi_next hload, reg_setReg_same .., rfl, (hframe.setDisp _).setReg _ _, { hgoes with },
    { hnotes with }⟩

end Sys2Proof.Machine
end

section
/-! PROOFS. LDS, STS and SAVEPC (43_load.md R207; 44_store.md R221, R230): the transfers of the Surprise
register and of PC(-3), privileged by decision D31. -/

namespace Sys2Proof.Machine

variable {s t : State} {address : BitVec 24} {v : Word}

/-- In supervisor state, a privileged instruction that uses no general register is stopped by no check. -/
theorem issue_privileged {w : Word} {stages : State → Result} (hsup : supervisor s = true)
    (h : stages (advance s) = .next t) : issue { word := w, privileged := true } s stages = .next t :=
  issue_eq_next.2 ⟨fun _ => hsup, loadPending_eq_false.2 nofun, nofun, rfl, h⟩

/-- What LDS leaves of a state: the word at the address in SUreg, noted. -/
def afterLds (address : BitVec 24) (s : State) : State :=
  loadSu (putAddress s (.direct address) (advance s)) (s.mem.word (sext address))

theorem execLds_next (hsup : supervisor s = true) (hmem : memAddr s (sext address) = true) :
    execLds address s = .next (afterLds address s) :=
  issue_privileged hsup (andThen_eq_next.2 ⟨_, memRead_eq_next.2 ⟨hmem, rfl⟩, rfl⟩)

/-- What a store without a piece leaves of a state: the address, and the word `v` there. -/
def afterStore (a : Address) (v : Word) (s : State) : State :=
  setMem (putAddress s a (advance s)) (s.mem.setWord (addressOf s a) v)

theorem execSts_next (hsup : supervisor s = true) (hmem : memAddr s (sext address) = true)
    (hcode : codeAddr s (sext address) = false) :
    execSts address s = .next (afterStore (.direct address) s.suReg s) :=
  issue_privileged hsup (memWrite_eq_next.2 ⟨hmem, hcode, rfl⟩)

/-- SAVEPC stores the `pcm` it started with, not the one its own sequencing sets. -/
theorem execSavepc_next (hsup : supervisor s = true) (hmem : memAddr s (sext address) = true)
    (hcode : codeAddr s (sext address) = false) :
    execSavepc address s = .next (afterStore (.direct address) s.pcm s) :=
  issue_privileged hsup (memWrite_eq_next.2 ⟨hmem, hcode, rfl⟩)

theorem word_afterStore (hm : s.mem.wf = true) (a : Address) (v : Word) :
    (afterStore a v s).mem.word (addressOf s a) = v :=
  (word_setWord hm ..).trans (if_pos rfl)

theorem plain_afterStore (hm : s.mem.wf = true) (a : Address) (v : Word) :
    Plain { stored := some (addressOf s a), mar := true, disp := (addressDisp a).isSome } s
      (afterStore a v s) := by
  obtain ⟨hframe, hgoes, hnotes⟩ := plain_advance s
  have hplaced := hgoes.of_sameSequencing (sameSequencing_putAddress s a (advance s))
  have hchanges := (hframe.putAddress a).setWord hm (addressOf s a) v
  rw [Bool.or_false] at hchanges
  exact ⟨hchanges, { hplaced with }, { notes_putAddress hnotes s a with }⟩

/-- An instruction whose meaning is a store at a direct address, without a piece. -/
theorem directStore_of_exec {i : Instr} (hm : s.mem.wf = true)
    (h : exec i s = .next (afterStore (.direct address) v s)) :
    ∃ t, exec i s = .next t ∧ t.mem.word (sext address) = v ∧ t.mar = sext address ∧
      t.disp = sext address ∧
      Plain { stored := some (sext address), mar := true, disp := true } s t :=
  ⟨_, h, word_afterStore hm (.direct address) v, rfl, rfl, plain_afterStore hm (.direct address) v⟩

/-- Settles O41: the word LDS puts in SUreg, and the two words stored. -/
theorem systemTransfers : Obligations.SystemTransfers := by
  intro address s a hsup hmem
  obtain ⟨hframe, hgoes, hnotes⟩ := plain_advance s
  refine ⟨⟨_, execLds_next hsup hmem, rfl, rfl, rfl, ?_, { hgoes with },
    { hnotes with ldsPrev := rfl }⟩, fun hm hcode => ⟨?_, ?_⟩⟩
  · exact (hframe.putAddress (.direct address)).loadSu _
  · exact directStore_of_exec hm (execSts_next hsup hmem hcode)
  · exact directStore_of_exec hm (execSavepc_next hsup hmem hcode)

end Sys2Proof.Machine
end

section
/-! PROOFS. The stores and the store-PC instructions (44_store.md R220 to R229). -/

namespace Sys2Proof.Machine

variable {s : State} {st base index : Reg} {a : Address} {p : Alu2} {v w : Word}

/-! ### The write before the piece -/

/-- A piece neither reads nor writes memory. -/
theorem runAlu2_setMem (p : Alu2) (t : State) (m : Memory) :
    runAlu2 p (setMem t m) = setMem (runAlu2 p t) m := by
  cases p with
  | toSpecial sel => cases sel <;> rfl
  | fromSpecial sel => cases sel <;> rfl
  | _ => rfl

/-- What a store with an ALU2 piece leaves of a state: the piece done, the address, and the word `v`
there. -/
def afterStoreWithAlu2 (p : Alu2) (a : Address) (v : Word) (s : State) : State :=
  setMem (putAddress s a (alone p s)) (s.mem.setWord (addressOf s a) v)

/-- The piece after the write is the piece before it (R220). -/
theorem runAlu2_afterStore (p : Alu2) (a : Address) (v : Word) (s : State) :
    runAlu2 p (afterStore a v s) = afterStoreWithAlu2 p a v s := by
  rw [afterStore, runAlu2_setMem, runAlu2_putAddress, afterStoreWithAlu2, alone]

/-! ### The stores complete -/

theorem storePlain_next (hload : NotLoading (st :: addressRegs a) s)
    (hmem : memAddr s (addressOf s a) = true) (hcode : codeAddr s (addressOf s a) = false) :
    storePlain w st a s = .next (afterStore a (reg s st) s) := by
  rw [storePlain_eq_next, loadPending_eq_false, formAddress_advance, addressOf_advance]
  exact ⟨hload, hmem, hcode, rfl⟩

theorem storeWithAlu2_next (hpriv : alu2Privileged p = true → supervisor s = true)
    (hload : NotLoading (st :: addressRegs a ++ alu2Regs p) s) (hdst : alu2Dst p ≠ some st)
    (hmem : memAddr s (addressOf s a) = true) (hcode : codeAddr s (addressOf s a) = false) :
    storeWithAlu2 w st a p s = .next (afterStoreWithAlu2 p a (reg s st) s) := by
  rw [storeWithAlu2_eq_next, loadPending_eq_false, formAddress_advance, addressOf_advance]
  exact ⟨hpriv, hload, hdst, hmem, hcode, runAlu2_afterStore ..⟩

/-- PC(current) in SX is the old `pc2`, whatever address was formed (R227). -/
theorem storedPc_formAddress_advance (s : State) (a : Address) :
    storedPc (formAddress (advance s) a) = s.pc2 + 1 := by
  cases a <;> rfl

/-- The store of the three store-PC instructions, at the address formed. -/
theorem memWrite_storedPc (hmem : memAddr s (addressOf s a) = true)
    (hcode : codeAddr s (addressOf s a) = false) :
    memWrite (formAddress (advance s) a) (formAddress (advance s) a).mar
      (storedPc (formAddress (advance s) a)) = .next (afterStore a (s.pc2 + 1) s) := by
  rw [memWrite_eq_next, storedPc_formAddress_advance, formAddress_mar, addressOf_advance,
    memAddr_formAddress, codeAddr_formAddress, formAddress_mem, formAddress_advance]
  exact ⟨hmem, hcode, rfl⟩

theorem execSpc_next {address : BitVec 24} (hmem : memAddr s (sext address) = true)
    (hcode : codeAddr s (sext address) = false) :
    execSpc address s = .next (afterStore (.direct address) (s.pc2 + 1) s) :=
  issue_eq_next.2 ⟨nofun, loadPending_eq_false.2 nofun, nofun, rfl, memWrite_storedPc hmem hcode⟩

theorem execSpcb_next {offset : BitVec 20} (hload : NotLoading [base] s)
    (hmem : memAddr s (reg s base + sext offset) = true)
    (hcode : codeAddr s (reg s base + sext offset) = false) :
    execSpcb base offset s = .next (afterStore (.based base offset) (s.pc2 + 1) s) :=
  issue_eq_next.2 ⟨nofun, loadPending_eq_false.2 hload, nofun, rfl, memWrite_storedPc hmem hcode⟩

/-- The word stored is the old `pc2 + 1`, also beside a piece that writes PC(current) (R228). -/
theorem execSpcalu_next {offset : BitVec 8} (hpriv : alu2Privileged p = true → supervisor s = true)
    (hload : NotLoading ([base] ++ alu2Regs p) s)
    (hmem : memAddr s (reg s base + sext offset) = true)
    (hcode : codeAddr s (reg s base + sext offset) = false) :
    execSpcalu base p offset s =
      .next (afterStoreWithAlu2 p (.based base offset) (s.pc2 + 1) s) :=
  issue_eq_next.2 ⟨hpriv, loadPending_eq_false.2 hload, nofun, rfl,
    andThen_eq_next.2 ⟨_, memWrite_storedPc hmem hcode, congrArg _ (runAlu2_afterStore ..)⟩⟩

/-! ### What a store leaves -/

/-- An instruction whose meaning is a store at a based address, without a piece. -/
theorem basedStore_of_exec {i : Instr} {n : Nat} {offset : BitVec n} (hm : s.mem.wf = true)
    (h : exec i s = .next (afterStore (.based base offset) v s)) :
    ∃ t, exec i s = .next t ∧ t.mem.word (reg s base + sext offset) = v ∧
      t.mar = reg s base + sext offset ∧ t.disp = sext offset ∧
      Plain { stored := some (reg s base + sext offset), mar := true, disp := true } s t :=
  ⟨_, h, word_afterStore hm (.based base offset) v, rfl, rfl,
    plain_afterStore hm (.based base offset) v⟩

theorem word_afterStoreWithAlu2 (hm : s.mem.wf = true) (p : Alu2) (a : Address) (v : Word) :
    (afterStoreWithAlu2 p a v s).mem.word (addressOf s a) = v :=
  (word_setWord hm ..).trans (if_pos rfl)

/-- Beside the word stored and the address, a store with a piece leaves what the piece alone leaves. -/
theorem afterStoreWithAlu2_frame (hm : s.mem.wf = true) (p : Alu2) (a : Address) (v : Word) :
    DoesPiece p [] s (afterStoreWithAlu2 p a v s) ∧
    OnlyChanges { pieceChanges p with
      stored := some (addressOf s a), mar := true,
      disp := (addressDisp a).isSome || (pieceChanges p).disp } s (afterStoreWithAlu2 p a v s) ∧
    SameSequencing (alone p s) (afterStoreWithAlu2 p a v s) ∧
    Notes none false false (afterStoreWithAlu2 p a v s) :=
  ⟨{ doesPiece_putAddress p s a with }, ((onlyChanges_alone p s).putAddress a).setWord hm _ v,
    { sameSequencing_putAddress s a (alone p s) with }, { notes_putAddress (notes_alone p s) s a with }⟩

/-! ### The statements -/

/-- Settles O38: the two addresses of a store without a piece. -/
theorem plainStores : Obligations.PlainStores := by
  constructor
  · intro st base offset s a hm hload hmem hcode
    exact basedStore_of_exec hm (storePlain_next (a := .based base offset) hload hmem hcode)
  · intro st address s a hm hload hmem hcode
    exact directStore_of_exec hm (storePlain_next (a := .direct address) hload hmem hcode)

/-- The registers of an instruction with an index and a piece, in the order of its meaning. -/
theorem notLoading_indexed {rs : List Reg} (hload : NotLoading ([st, base] ++ rs) s)
    (hindex : NotLoading [index] s) :
    NotLoading (st :: addressRegs (.indexed base index) ++ rs) s := by
  intro r hr
  have hr' : r ∈ [index] ∨ r ∈ [st, base] ++ rs := by
    simp only [addressRegs, List.mem_append, List.mem_cons] at hr ⊢
    tauto
  exact hr'.elim (hindex r) (hload r)

/-- Settles O39: the store beside its piece, under each of the three forms of the address. -/
theorem storesWithPiece : Obligations.StoresWithPiece := by
  intro st base p s hm hpriv hload hdst
  refine ⟨?based, ?indexed, ?shifted⟩
  case based =>
    intro offset a hmem hcode
    exact ⟨_, storeWithAlu2_next hpriv hload hdst hmem hcode,
      word_afterStoreWithAlu2 hm p (.based base offset) _, rfl, rfl,
      afterStoreWithAlu2_frame hm p (.based base offset) _⟩
  case indexed =>
    intro index a hindex hmem hcode
    exact ⟨_, storeWithAlu2_next hpriv (notLoading_indexed hload hindex) hdst hmem hcode,
      word_afterStoreWithAlu2 hm p (.indexed base index) _, rfl,
      afterStoreWithAlu2_frame hm p (.indexed base index) _⟩
  case shifted =>
    intro shift a ha hmem hcode
    obtain rfl := eq_sshiftRight_of_toInt ha
    exact ⟨_, storeWithAlu2_next (a := .shifted base shift) hpriv hload hdst hmem hcode,
      word_afterStoreWithAlu2 hm p (.shifted base shift) _, rfl,
      afterStoreWithAlu2_frame hm p (.shifted base shift) _⟩

/-- Settles O40: the stores of O38 and O39 with `pc2 + 1` as the word. -/
theorem storePcInstructions : Obligations.StorePcInstructions := by
  intro s hm
  refine ⟨?spc, ?spcb, ?spcalu⟩
  case spc =>
    intro address a hmem hcode
    exact directStore_of_exec hm (execSpc_next hmem hcode)
  case spcb =>
    intro base offset a hload hmem hcode
    exact basedStore_of_exec hm (execSpcb_next hload hmem hcode)
  case spcalu =>
    intro base p offset a hpriv hload hmem hcode
    exact ⟨_, execSpcalu_next hpriv hload hmem hcode,
      word_afterStoreWithAlu2 hm p (.based base offset) _, rfl, rfl,
      afterStoreWithAlu2_frame hm p (.based base offset) _⟩

end Sys2Proof.Machine
end

section
/-! PROOFS. Set Conditionally (45_setcond_trap.md R240). -/

namespace Sys2Proof.Machine

variable {i : Instr} {c : Cond} {s : State}

/-- The two spellings of a branch, trap or set have one condition (42_control.md R172). -/
theorem condition_of_spelling {h : CondHost} (hi : i = h.instr c ∨ i = Instr.ofCond c h) :
    i.condition = some (c, h) := by
  rcases hi with rfl | rfl
  · cases h <;> rfl
  · exact condition_ofCond c h

/-- A set under either spelling, with no load pending. -/
theorem exec_set {imm : Bool} {dst src : Reg} (hi : i.condition = some (c, .set imm dst src))
    (hload : NotLoading ([dst] ++ sourceRegs imm src) s) :
    exec i s =
      .next (setReg (advance s) dst (setResult (test c (source s imm src) (reg s dst)))) := by
  rw [exec_of_condition hi]
  exact setOn_eq_next.2 ⟨loadPending_eq_false.2 hload, rfl⟩

/-- Settles O42: a set is one register write, of the test's result. -/
theorem setConditionally : Obligations.SetConditionally := by
  intro c imm dst src s i hi hload
  have hcond : i.condition = some (c, .set imm dst src) := condition_of_spelling hi
  exact ⟨_, exec_set hcond hload, reg_setReg_same .., plain_setReg_advance ..⟩

end Sys2Proof.Machine
end

section
/-! PROOFS. Trap Conditionally, and SAVEPC first after a taken trap (45_setcond_trap.md R242 to R244;
60_exceptions.md R257, R259, R263). -/

namespace Sys2Proof.Machine

variable {i : Instr} {c : Cond} {s t : State}

/-! ### The code in SUreg -/

theorem getLsbD_trapCodeMask (k : Nat) : trapCodeMask.getLsbD k = decide (1 ≤ k ∧ k ≤ 12) := by
  have hmask : trapCodeMask = place (BitVec.allOnes 12) 1 := rfl
  simp only [hmask, place, BitVec.getLsbD_shiftLeft, BitVec.getLsbD_setWidth,
    BitVec.getLsbD_allOnes, ← Bool.decide_and, ← decide_not]
  exact decide_eq_decide.2 (by omega)

/-- The OD stage of TRAP replaces the bits 12 to 1 of SUreg, and no other (R244). -/
theorem getLsbD_setTrapCode (t : State) (v : Word) (k : Nat) :
    (setTrapCode t v).suReg.getLsbD k =
      if 1 ≤ k ∧ k ≤ 12 then v.getLsbD (k - 1) else t.suReg.getLsbD k := by
  have hlt : t.suReg.getLsbD k = true → k < 32 := BitVec.lt_of_getLsbD
  rw [setTrapCode_suReg, BitVec.getLsbD_or, BitVec.getLsbD_and, BitVec.getLsbD_not,
    getLsbD_trapCodeMask]
  by_cases hk : 1 ≤ k ∧ k ≤ 12
  · simp [hk, show k < 32 by omega, show k - 1 < 12 by omega, show k ≠ 0 by omega]
  · obtain rfl | hlarge : k = 0 ∨ 12 < k := by omega
    · simp
    · simpa [hk, show ¬ k - 1 < 12 by omega] using hlt

/-- Taking the trap keeps the bits 12 to 1 of SUreg; the others are drawn (R259). -/
theorem getLsbD_takeTrap (t : State) (k : Nat) :
    (takeTrap t).suReg.getLsbD k =
      if 1 ≤ k ∧ k ≤ 12 then t.suReg.getLsbD k else (Config.freeWord t.draws).getLsbD k := by
  have hlt : (Config.freeWord t.draws).getLsbD k = true → k < 32 := BitVec.lt_of_getLsbD
  by_cases hk : 1 ≤ k ∧ k ≤ 12
  · simp [hk, getLsbD_trapCodeMask]
  · simpa [hk, getLsbD_trapCodeMask] using hlt

/-- A word whose bits 12 to 1 are the sign-extended code's bits 11 to 0 holds the code. -/
theorem holdsTrapCode_of_getLsbD {code : BitVec 11} {su : Word}
    (h : ∀ k, 1 ≤ k ∧ k ≤ 12 → su.getLsbD k = (sext code).getLsbD (k - 1)) :
    HoldsTrapCode code su := by
  constructor
  · refine BitVec.eq_of_getLsbD_eq fun k hk => ?_
    rw [BitVec.getLsbD_extractLsb', h (1 + k) (by omega)]
    simp [sext, BitVec.getElem_signExtend, hk, Nat.lt_trans hk]
  · rw [h 12 (by omega)]
    simp [sext, BitVec.getElem_signExtend, BitVec.msb_eq_getLsbD_last]

/-- The code is in SUreg after the OD stage, and still there after the trap is taken. -/
theorem holdsTrapCode_afterTrapCode (code : BitVec 11) (s : State) :
    HoldsTrapCode code (afterTrapCode code s).suReg ∧
      HoldsTrapCode code (takeTrap (afterTrapCode code s)).suReg := by
  have hcode : ∀ k, 1 ≤ k ∧ k ≤ 12 →
      (afterTrapCode code s).suReg.getLsbD k = (sext code).getLsbD (k - 1) :=
    fun k hk => (getLsbD_setTrapCode _ _ k).trans (if_pos hk)
  exact ⟨holdsTrapCode_of_getLsbD hcode,
    holdsTrapCode_of_getLsbD fun k hk =>
      ((getLsbD_takeTrap _ k).trans (if_pos hk)).trans (hcode k hk)⟩

/-! ### The frame -/

theorem OnlyChanges.setTrapCode {d : Changes} (h : OnlyChanges d s t) (v : Word) :
    OnlyChanges { d with suReg := true } s (setTrapCode t v) :=
  { h with suReg := nofun }

theorem OnlyChanges.takeTrap {d : Changes} (h : OnlyChanges d s t) :
    OnlyChanges { d with suReg := true, draws := true } s (takeTrap t) :=
  { h with suReg := nofun, draws := nofun }

theorem plain_afterTrapCode (code : BitVec 11) (s : State) :
    Plain { suReg := true, disp := true } s (afterTrapCode code s) := by
  obtain ⟨hframe, hgoes, hnotes⟩ := plain_advance s
  exact ⟨(hframe.setDisp _).setTrapCode _, { hgoes with }, { hnotes with }⟩

/-! ### The statements -/

/-- A TRAP under either spelling, with no check to stop it: the code, and the trap if the test holds. -/
theorem exec_trap {imm : Bool} {src2 src1 : Reg} {code : BitVec 11} {bit0 : Bool}
    (hi : i.condition = some (c, .trap imm src2 src1 code bit0))
    (hload : NotLoading ([src2] ++ sourceRegs imm src1) s) (hlds : s.ldsPrev = false) :
    exec i s = .next (if test c (source s imm src1) (reg s src2) = true
      then takeTrap (afterTrapCode code s) else afterTrapCode code s) := by
  rw [exec_of_condition hi]
  exact trapOn_eq_next.2 ⟨loadPending_eq_false.2 hload, hlds, rfl⟩

/-- Settles O43: without the trap, the code's write to SUreg is all that is left of a TRAP. -/
theorem trapNotTaken : Obligations.TrapNotTaken := by
  intro c imm src2 src1 code bit0 s i hi hload hlds htest
  have hcond : i.condition = some (c, .trap imm src2 src1 code bit0) := condition_of_spelling hi
  have hother : ∀ k, k = 0 ∨ 12 < k →
      (afterTrapCode code s).suReg.getLsbD k = s.suReg.getLsbD k :=
    fun k hk => (getLsbD_setTrapCode _ _ k).trans (if_neg (by omega))
  refine ⟨afterTrapCode code s, ?_, (holdsTrapCode_afterTrapCode code s).1, hother, rfl,
    plain_afterTrapCode code s⟩
  rw [exec_trap hcond hload hlds, htest]
  rfl

/-- Settles O44: `takeTrap` sets the sequencing and the setting, and keeps the code in SUreg. -/
theorem trapTaken : Obligations.TrapTaken := by
  intro c imm src2 src1 code bit0 s i hi hload hlds htest
  have hcond : i.condition = some (c, .trap imm src2 src1 code bit0) := condition_of_spelling hi
  obtain ⟨hframe, -, hnotes⟩ := plain_afterTrapCode code s
  refine ⟨takeTrap (afterTrapCode code s), ?_, (holdsTrapCode_afterTrapCode code s).2,
    rfl, rfl, rfl, rfl, rfl, rfl, rfl, rfl, rfl, hframe.takeTrap, { hnotes with }⟩
  rw [exec_trap hcond hload hlds, if_pos htest]

/-- Settles O45: the taken trap leaves the annulled address in `pcm` and supervisor state, which are
what SAVEPC stores and what it asks for. -/
theorem savepcAfterTrap : Obligations.SavepcAfterTrap := by
  intro c imm src2 src1 code bit0 s t address a hm htest hmem hcode htrap
  obtain ⟨-, -, htaken⟩ := trapOn_eq_next.1 htrap
  obtain rfl : takeTrap (afterTrapCode code s) = t := (if_pos htest).symm.trans htaken
  exact ⟨_, execSavepc_next rfl hmem hcode, word_afterStore hm (.direct address) _, rfl, rfl⟩

end Sys2Proof.Machine
end

section
/-! PROOFS. When an instruction is refused for its privilege, and when it completes
(60_exceptions.md R252, R262, R265): from its checks and its one data access. -/

namespace Sys2Proof.Machine

variable {i : Instr} {s : State}

/-! ### The checks -/

/-- Privilege is the first of the checks: it stops an instruction whatever the others say (R262). -/
theorem issue_eq_privilegeViolation_iff {u : Uses} {w : Word} {stages : State → Result}
    (hstages : stages (advance s) ≠ .refused (.privilegeViolation w)) :
    issue u s stages = .refused (.privilegeViolation w) ↔
      (u.privileged = true ∧ supervisor s = false) ∧ w = u.word := by
  by_cases hpriv : u.privileged = true ∧ supervisor s = false
  · simp [issue, hpriv, eq_comm]
  · have hpass : ¬ (u.privileged && !supervisor s) = true := by simpa using hpriv
    simp only [hpriv, false_and, iff_false, issue, if_neg hpass]
    split_ifs
    · nofun
    · nofun
    · nofun
    · exact hstages

/-- The checks on an instruction pass exactly where the state is ready for it, but for its legality
and its access. -/
theorem issue_checked_eq_next_iff {t : State} {stages : State → Result} :
    issue (checked i s) s stages = .next t ↔
      ¬ Unprivileged i s ∧ NotLoading i.uses s ∧ ¬ PcConflict i s ∧ i.conflicts s = false ∧
      stages (advance s) = .next t := by
  rw [issue_eq_next, loadPending_eq_false]
  simp [checked]

/-! ### The stages -/

/-- An access that stops an instruction stops it for another reason than privilege. -/
theorem Accesses.ne_privilegeViolation {t : State} {x : Access} {o : Result} (h : Accesses t x o)
    (w : Word) : o ≠ .refused (.privilegeViolation w) := by
  cases h <;> nofun

/-- The access completes exactly where it is allowed. -/
theorem Accesses.completes_iff {t : State} {x : Access} {o : Result} (h : Accesses t x o) :
    (∃ u, o = .next u) ↔ x.allowed t := by
  cases h <;> simp [Access.allowed, *]

/-! ### Words that are no legal instruction -/

/-- No word without a meaning is a privileged operation. -/
theorem legal_of_privileged (h : i.privileged = true) : i.legal = true := by
  cases i with
  | illegal | reserved => cases h
  | _ => rfl

/-- A word without a meaning is refused under its own name, not for privilege (R252). -/
theorem legal_of_exec_eq_privilegeViolation {w : Word}
    (h : exec i s = .refused (.privilegeViolation w)) : i.legal = true := by
  cases i with
  | illegal | reserved => cases h
  | _ => rfl

/-! ### The statements -/

/-- The access, which follows the checks, is never refused for privilege (R262). -/
theorem exec_eq_privilegeViolation_iff_of_legal (hlegal : i.legal = true) (w : Word) :
    exec i s = .refused (.privilegeViolation w) ↔ Unprivileged i s ∧ w = encode i := by
  obtain ⟨stages, hexec, hacc⟩ := exec_checksThenAccesses hlegal s
  rw [hexec]
  exact issue_eq_privilegeViolation_iff (hacc.ne_privilegeViolation w)

/-- Settles O49: either side of the equivalence asks for a legal instruction. -/
theorem privilegeRefusalsExact : Obligations.PrivilegeRefusalsExact := by
  intro i s w
  constructor
  · intro h
    exact (exec_eq_privilegeViolation_iff_of_legal (legal_of_exec_eq_privilegeViolation h) w).1 h
  · rintro ⟨⟨hpriv, huser⟩, hw⟩
    exact (exec_eq_privilegeViolation_iff_of_legal (legal_of_privileged hpriv) w).2
      ⟨⟨hpriv, huser⟩, hw⟩

/-- Settles O52: an instruction completes where its checks pass and its access is allowed. -/
theorem completesExactlyWhenReady : Obligations.CompletesExactlyWhenReady := by
  intro i s
  constructor
  · rintro ⟨t, ht⟩
    have hlegal := legal_of_exec_eq_next ht
    obtain ⟨stages, hexec, -⟩ := exec_checksThenAccesses hlegal s
    obtain ⟨hpriv, hload, hpc, hconf, -⟩ := issue_checked_eq_next_iff.1 (hexec.symm.trans ht)
    exact ⟨hlegal, hpriv, hload, hpc, hconf, (accesses_of_exec_eq_next ht).completes_iff.1 ⟨t, rfl⟩⟩
  · rintro ⟨hlegal, hpriv, hload, hpc, hconf, hallowed⟩
    obtain ⟨stages, hexec, hacc⟩ := exec_checksThenAccesses hlegal s
    obtain ⟨t, ht⟩ := hacc.completes_iff.2 hallowed
    exact ⟨t, hexec.trans (issue_checked_eq_next_iff.2 ⟨hpriv, hload, hpc, hconf, ht⟩)⟩

end Sys2Proof.Machine
end

section
/-! PROOFS. A word placed for the fetch is the one the next step runs (70_reset_and_hazards.md R280;
log entry 4). -/

namespace Sys2Proof.Machine

/-- Spans extended by one address, where they do not hold it already, hold it. -/
theorem inSpans_extended (spans : List Span) (a : Word) :
    inSpans (if inSpans spans a then spans else ⟨a, a⟩ :: spans) a = true := by
  split
  next h => exact h
  next => simp [inSpans]

/-- The placed word's address is in the program: both domains are extended by it. -/
theorem codeAddr_withFetchWord (s : State) (nbits w : Nat) :
    codeAddr (s.withFetchWord nbits w) s.pc0 = true :=
  Bool.and_eq_true_iff.2 ⟨inSpans_extended s.codeDomain s.pc0, inSpans_extended s.memDomain s.pc0⟩

theorem word_withFetchWord {s : State} (hm : s.mem.wf = true) (w : Word) :
    (s.withFetchWord 32 w.toNat).mem.word s.pc0 = w := by
  have hw : BitVec.ofNat 32 (w.toNat % 2 ^ 32) = w := by
    rw [Nat.mod_eq_of_lt w.isLt, BitVec.ofNat_toNat, BitVec.setWidth_eq]
  exact (word_setWord hm ..).trans ((if_pos rfl).trans hw)

/-- Settles O7: the fetch from the placed word's address answers that word. -/
theorem placedWordRunsNext : Obligations.PlacedWordRunsNext := by
  intro s w hm
  exact step_of_fetch_eq_next (fetch_eq_next.2 ⟨codeAddr_withFetchWord .., word_withFetchWord hm w⟩)

end Sys2Proof.Machine
end

section
/-! PROOFS. The invariant (log entry 3; 70_reset_and_hazards.md R292): which note each instruction
leaves, and that its one data access keeps memory canonical. -/

namespace Sys2Proof.Machine

variable {i : Instr} {s t u : State}

/-! ### What keeps the notes -/

section
variable {loaded : Option Reg} {indirect lds : Bool} (h : Notes loaded indirect lds t)
include h

theorem Notes.of_pieceKeeps (k : PieceKeeps t u) : Notes loaded indirect lds u :=
  ⟨k.ldPrev.trans h.ldPrev, k.jd2Prev.trans h.jd2Prev, k.ldsPrev.trans h.ldsPrev⟩

theorem Notes.runAlu2 (p : Alu2) : Notes loaded indirect lds (runAlu2 p t) :=
  h.of_pieceKeeps (runAlu2_keeps p t)

theorem Notes.setMem (m : Memory) : Notes loaded indirect lds (setMem t m) := { h with }

theorem Notes.of_memWrite {a v : Word} (hw : memWrite t a v = .next u) :
    Notes loaded indirect lds u := by
  obtain ⟨-, -, rfl⟩ := memWrite_eq_next.1 hw
  exact h.setMem _

end

theorem notes_advance (s : State) : Notes none false false (advance s) := ⟨rfl, rfl, rfl⟩

theorem notes_formAddress (a : Address) (s : State) :
    Notes none false false (formAddress (advance s) a) :=
  formAddress_advance s a ▸ notes_putAddress (notes_advance s) s a

/-! ### What sets one -/

theorem Notes.loadReg (h : Notes none false false t) (dst : Reg) (v : Word) :
    Notes (some dst) false false (loadReg t dst v) :=
  { h with ldPrev := rfl }

theorem Notes.of_jumpThroughMar (h : Notes none false false t) (hj : jumpThroughMar t = .next u) :
    Notes none true false u := by
  obtain ⟨-, rfl⟩ := jumpThroughMar_eq_next.1 hj
  exact { h with jd2Prev := rfl }

/-! ### The shared meanings -/

theorem notes_of_branchOn {c : Cond} {imm : Bool} {src2 src1 : Reg} {offset : BitVec 12}
    (h : branchOn c imm src2 src1 offset s = .next t) : Notes none false false t := by
  obtain ⟨-, -, rfl⟩ := branchOn_eq_next.1 h
  dsimp only
  split <;> exact ⟨rfl, rfl, rfl⟩

theorem notes_of_trapOn {c : Cond} {imm : Bool} {src2 src1 : Reg} {code : BitVec 11} {bit0 : Bool}
    (h : trapOn c imm src2 src1 code bit0 s = .next t) : Notes none false false t := by
  obtain ⟨-, -, rfl⟩ := trapOn_eq_next.1 h
  dsimp only
  split <;> exact ⟨rfl, rfl, rfl⟩

theorem notes_of_setOn {c : Cond} {imm : Bool} {dst src : Reg}
    (h : setOn c imm dst src s = .next t) : Notes none false false t := by
  obtain ⟨-, rfl⟩ := setOn_eq_next.1 h
  exact ⟨rfl, rfl, rfl⟩

section
variable {w : Word} {r : Reg} {a : Address} {p : Alu2}

theorem notes_of_loadPlain (h : loadPlain w r a s = .next t) : Notes (some r) false false t := by
  obtain ⟨-, -, rfl⟩ := loadPlain_eq_next.1 h
  exact (notes_formAddress a s).loadReg ..

theorem notes_of_loadWithAlu2 (h : loadWithAlu2 w r a p s = .next t) :
    Notes (some r) false false t := by
  obtain ⟨-, -, -, rfl⟩ := loadWithAlu2_eq_next.1 h
  exact ((notes_formAddress a s).runAlu2 p).loadReg ..

theorem notes_of_storePlain (h : storePlain w r a s = .next t) : Notes none false false t := by
  obtain ⟨-, -, -, rfl⟩ := storePlain_eq_next.1 h
  exact (notes_formAddress a s).setMem _

theorem notes_of_storeWithAlu2 (h : storeWithAlu2 w r a p s = .next t) :
    Notes none false false t := by
  obtain ⟨-, -, -, -, -, rfl⟩ := storeWithAlu2_eq_next.1 h
  exact ((notes_formAddress a s).setMem _).runAlu2 p

end

/-! ### Every instruction -/

/-- The instruction is none of those that leave a note (R292). -/
structure NotNoted (i : Instr) : Prop where
  loads : i.loads = none
  isIndirectJump : i.isIndirectJump = false
  isLds : i.isLds = false

theorem notNoted_of_packing {q : Alu3 × Alu2} (h : i.packing = some q) : NotNoted i := by
  cases i <;> cases h <;> exact ⟨rfl, rfl, rfl⟩

theorem notNoted_of_condition {q : Cond × CondHost} (h : i.condition = some q) : NotNoted i := by
  cases i <;> cases h <;> exact ⟨rfl, rfl, rfl⟩

theorem notNoted_of_store {a : Word} (h : i.access s = .store a) : NotNoted i := by
  cases i <;> cases h <;> exact ⟨rfl, rfl, rfl⟩

theorem not_jump_not_lds_of_loads {dst : Reg} (h : i.loads = some dst) :
    i.isIndirectJump = false ∧ i.isLds = false := by
  cases i <;> cases h <;> exact ⟨rfl, rfl⟩

theorem not_lds_of_isIndirectJump (h : i.isIndirectJump = true) : i.isLds = false := by
  cases i <;> cases h <;> rfl

theorem NotNoted.notes (k : NotNoted i) (h : Notes none false false t) :
    Notes i.loads i.isIndirectJump i.isLds t := by
  rwa [k.loads, k.isIndirectJump, k.isLds]

theorem notes_of_loads {dst : Reg} (hi : i.loads = some dst) (h : Notes (some dst) false false t) :
    Notes i.loads i.isIndirectJump i.isLds t := by
  obtain ⟨hjump, hlds⟩ := not_jump_not_lds_of_loads hi
  rwa [hi, hjump, hlds]

/-- A completed instruction leaves the note of what it is: a load, an indirect jump, LDS, or none of
these (R292). -/
theorem notes_of_exec_eq_next (h : exec i s = .next t) :
    Notes i.loads i.isIndirectJump i.isLds t := by
  have hi := exec_meaning i
  generalize exec i = f at hi h
  cases hi with
  | packed hp =>
    obtain ⟨-, -, -, rfl⟩ := packed_eq_next.1 h
    exact (notNoted_of_packing hp).notes (notes_afterPacked ..)
  | branch hc => exact (notNoted_of_condition hc).notes (notes_of_branchOn h)
  | trap hc => exact (notNoted_of_condition hc).notes (notes_of_trapOn h)
  | set hc => exact (notNoted_of_condition hc).notes (notes_of_setOn h)
  | load hi => exact notes_of_loads hi (notes_of_loadPlain h)
  | loadWithAlu2 hi => exact notes_of_loads hi (notes_of_loadWithAlu2 h)
  | store ha => exact (notNoted_of_store (ha s)).notes (notes_of_storePlain h)
  | storeWithAlu2 ha => exact (notNoted_of_store (ha s)).notes (notes_of_storeWithAlu2 h)
  | ldi | bucnd | jbase | jdrct =>
    cases stages_of_issue h
    exact ⟨rfl, rfl, rfl⟩
  | jbind | jind => exact (notes_formAddress ..).of_jumpThroughMar (stages_of_issue h)
  | jibalu => exact ((notes_formAddress ..).runAlu2 _).of_jumpThroughMar (stages_of_issue h)
  | jindss =>
    obtain ⟨-, -, rfl⟩ := execJindss_eq_next.1 h
    exact ⟨rfl, rfl, rfl⟩
  | spcb | spc | sts | savepc => exact (notes_formAddress ..).of_memWrite (stages_of_issue h)
  | spcalu =>
    obtain ⟨u, hu, hpiece⟩ := andThen_eq_next.1 (stages_of_issue h)
    cases hpiece
    exact ((notes_formAddress ..).of_memWrite hu).runAlu2 _
  | lds =>
    obtain ⟨v, -, hv⟩ := andThen_eq_next.1 (stages_of_issue h)
    cases hv
    exact ⟨rfl, rfl, rfl⟩
  | illegal | reserved => cases h

/-! ### The two parts of the invariant -/

/-- No instruction is two of a load, an indirect jump and an LDS. -/
theorem Notes.oneNote (h : Notes i.loads i.isIndirectJump i.isLds t) : OneNote t := by
  rw [OneNote, h.ldPrev, h.jd2Prev, h.ldsPrev]
  refine ⟨fun hload => ?_, not_lds_of_isIndirectJump⟩
  obtain ⟨dst, hdst⟩ := Option.ne_none_iff_exists'.1 hload
  exact not_jump_not_lds_of_loads hdst

/-- Of the accesses only a store changes memory, by one word write. -/
theorem Accesses.wf {x : Access} (h : Accesses s x (.next t)) (hwf : s.mem.wf = true) :
    t.mem.wf = true := by
  cases h with
  | none k => exact k.mem ▸ hwf
  | load _ k => exact k.mem ▸ hwf
  | store _ _ k => exact k.mem ▸ wf_setWord hwf ..

/-- Settles O54: the access keeps memory canonical, and the notes are those of one instruction,
whatever they were before. -/
theorem stepKeepsInv : Obligations.StepKeepsInv := by
  rintro s t ⟨hwf, -⟩ hstep
  obtain ⟨-, hexec⟩ := step_eq_next.1 hstep
  exact ⟨(accesses_of_exec_eq_next hexec).wf hwf, (notes_of_exec_eq_next hexec).oneNote⟩

end Sys2Proof.Machine
end

section
/-! PROOFS. When an instruction is refused for a hazard (60_exceptions.md R262;
70_reset_and_hazards.md R285 to R288): the checks of `issue` in their order, before the one data access. -/

namespace Sys2Proof.Machine

variable {i : Instr} {s : State}

/-! ### The checks -/

/-- The result of the checks of an instruction and then the result `o` of its stages: the first check
that applies names the refusal (R262). -/
inductive Issued (i : Instr) (s : State) (o : Result) : (r : Result) → Prop
  | privilege (hpriv : Unprivileged i s) : Issued i s o (.refused (.privilegeViolation (encode i)))
  | loadDelay (hpriv : ¬ Unprivileged i s) (hload : ¬ NotLoading i.uses s) :
      Issued i s o (.refused (.loadDelayViolation (encode i)))
  | pcAccess (hpriv : ¬ Unprivileged i s) (hload : NotLoading i.uses s) (hpc : PcConflict i s) :
      Issued i s o (.refused (.pcAccessConflict (encode i)))
  | register (hpriv : ¬ Unprivileged i s) (hload : NotLoading i.uses s) (hpc : ¬ PcConflict i s)
      (hconf : i.conflicts s = true) : Issued i s o (.refused (.registerConflict (encode i)))
  | passed (hpriv : ¬ Unprivileged i s) (hload : NotLoading i.uses s) (hpc : ¬ PcConflict i s)
      (hconf : i.conflicts s = false) : Issued i s o o

theorem loadPending_eq_true {rs : List Reg} : loadPending s rs = true ↔ ¬ NotLoading rs s := by
  rw [← Bool.not_eq_false, loadPending_eq_false]

/-- `issue` is these checks in this order (R262). -/
theorem issue_issued (i : Instr) (s : State) (stages : State → Result) :
    Issued i s (stages (advance s)) (issue (checked i s) s stages) := by
  simp only [issue, Bool.and_eq_true_iff, Bool.not_eq_true']
  split_ifs with hpriv hload hpc hconf
  · exact .privilege hpriv
  · exact .loadDelay hpriv (loadPending_eq_true.1 hload)
  all_goals have hfree := loadPending_eq_false.1 (Bool.eq_false_of_not_eq_true hload)
  · exact .pcAccess hpriv hfree hpc
  · exact .register hpriv hfree hpc hconf
  · exact .passed hpriv hfree hpc (Bool.eq_false_of_not_eq_true hconf)

/-- Each hazard is named exactly where its check applies and none before it does: the access, which
comes after, is never refused for one. -/
theorem Issued.hazards_iff {o r : Result} {x : Access} (h : Issued i s o r) (hacc : Accesses s x o)
    (w : Word) :
    (r = .refused (.loadDelayViolation w) ↔
      ¬ Unprivileged i s ∧ ¬ NotLoading i.uses s ∧ w = encode i) ∧
    (r = .refused (.pcAccessConflict w) ↔
      ¬ Unprivileged i s ∧ NotLoading i.uses s ∧ PcConflict i s ∧ w = encode i) ∧
    (r = .refused (.registerConflict w) ↔
      ¬ Unprivileged i s ∧ NotLoading i.uses s ∧ ¬ PcConflict i s ∧ i.conflicts s = true ∧
      w = encode i) := by
  cases h with
  | privilege | loadDelay | pcAccess | register => grind
  | passed => cases hacc <;> grind

/-! ### The statement -/

/-- A word without a meaning is refused under its own name (R252). -/
theorem exec_of_not_legal (h : i.legal = false) (s : State) :
    ∃ w, exec i s = .refused (.illegalInstruction w) ∨
      exec i s = .refused (.reservedOperation w) := by
  cases i with
  | illegal w => exact ⟨w, .inl rfl⟩
  | reserved w => exact ⟨w, .inr rfl⟩
  | _ => cases h

/-- Settles O50: a legal instruction is its checks and then its access; of the others none is
refused for a hazard. -/
theorem hazardRefusalsExact : Obligations.HazardRefusalsExact := by
  intro i s w
  cases hlegal : i.legal with
  | true =>
    obtain ⟨stages, hexec, hacc⟩ := exec_checksThenAccesses hlegal s
    simp only [hexec, true_and]
    exact (issue_issued i s stages).hazards_iff hacc w
  | false =>
    obtain ⟨v, hexec | hexec⟩ := exec_of_not_legal hlegal s <;> simp [hexec]

end Sys2Proof.Machine
end
